-- ==== Sys2Proof/Word.lean ====
section
/-! DEFINITION. The word types of the ZH6400 model and the sparse store every large array of the
device is kept in. -/

namespace Sys2Proof

/-- A byte (R8: a byte string's nibbles are numbered from its bytes). -/
abbrev Byte := BitVec 8

/-- A 64-bit word: one aligned word of a register (R36), a general register (R113), a reply word (R150). -/
abbrev Word := BitVec 64

/-- A sparse array: key and value pairs in one canonical form, keys strictly rising, no pair whose
value is what an unlisted key reads as. -/
abbrev Sparse (α : Type) := List (Nat × α)

end Sys2Proof
end

