-- ==== Sys2Proof/Syntax.lean ====
section
/-! DEFINITION. The commands of the ZH6400: one constructor per row of the opcode table, with the row's
operands. A command is an access by the host or the board controller, an instruction that a thread
issues, a step of one of the module's own engines, or an event on a lane, a link or a supply. -/

namespace Sys2Proof

/-- Who makes a register access: function `n` (R30: the PF is 0, VF n is n), a steward thread (system
space 0x04, R172), the board controller over SMBus (R536), or a coat's start writes (R554). -/
inductive Agent where
  | fn (n : Nat)
  | steward (core : Nat)
  | smbus
  | startWrite
  deriving DecidableEq, Repr

/-- Width of a register access (R36). -/
inductive Width where
  | w32
  | w64
  deriving DecidableEq, Repr

/-- Bytes of an access. -/
def Width.bytes : Width → Nat
  | .w32 => 4
  | .w64 => 8

/-- A thread: a packet thread of a slice's core (R81), or a steward thread of a die (R88). -/
inductive Tid where
  | packet (slice core thread : Nat)
  | steward (die core thread : Nat)
  deriving DecidableEq, Repr

/-- The side of the packet walk a packet is on (R17 step 4 and step 10). -/
inductive Side where
  | ingress
  | egress
  deriving DecidableEq, Repr

/-- Format A (R121), less the opcode. -/
structure FmtA where
  d : BitVec 5
  a : BitVec 5
  b : BitVec 5
  x : BitVec 10
  deriving DecidableEq, Repr

/-- Format I (R121), less the opcode. -/
structure FmtI where
  d : BitVec 5
  a : BitVec 5
  p : BitVec 3
  imm : BitVec 12
  deriving DecidableEq, Repr

/-- Format N (R121), less the opcode. -/
structure FmtN where
  g : BitVec 5
  off : BitVec 10
  w : BitVec 5
  base : BitVec 5
  deriving DecidableEq, Repr

/-- Format C (R121), less the opcode. -/
structure FmtC where
  ch : BitVec 4
  d : BitVec 5
  a : BitVec 5
  b : BitVec 5
  x : BitVec 6
  deriving DecidableEq, Repr

/-- Format B (R121), less the opcode. -/
structure FmtB where
  s : BitVec 1
  p : BitVec 3
  z : BitVec 1
  off : BitVec 20
  deriving DecidableEq, Repr

/-- What an image binds a channel to (R92). `thread t` is a named thread of the same core. -/
inductive Binding where
  | unbound
  | lookup
  | pattern
  | meters
  | counters
  | thread (t : Nat)
  deriving DecidableEq, Repr

/-- A core: packet core `core` of a slice (R81), or steward core `core` of a die (R88). -/
inductive CoreRef where
  | packet (slice core : Nat)
  | steward (die core : Nat)
  deriving DecidableEq, Repr

/-- One channel binding of an image (R92): channel `ch` of one core.
The manual gives no image section for it, so the image's bindings stand beside its bytes. -/
structure BindDecl where
  core : CoreRef
  ch : Nat
  bindTo : Binding
  deriving DecidableEq, Repr

/-- A write by software: to a register, or to the function controls of configuration space that R30,
R45 and R548 name (SR-IOV VF enable, MSI-X enable and function mask). -/
inductive RegWrite where
  | csr (agent : Agent) (offset : Nat) (width : Width) (value : Word)
  | numVfs (n : Nat)
  | msixControl (fn : Nat) (enable mask : Bool)
  deriving DecidableEq, Repr

/-- A read by software: of CSR space, or by the PF of its BAR2 or BAR4 (R31). -/
inductive RegRead where
  | csr (agent : Agent) (offset : Nat) (width : Width)
  | bar2 (offset : Nat) (width : Width)
  | bar4 (offset : Nat) (width : Width)
  deriving DecidableEq, Repr

/-- One request of a requester port in a cycle of the buffer manager (R278, R286). -/
structure BufReq where
  port : Nat
  owner : Nat
  len : Nat
  /-- REALM and TC of the packet's ticket (R560). -/
  realm : Nat
  tc : Nat
  deriving DecidableEq, Repr

/-- Where a packet that reaches Varton ingress comes from (R302, R278): the die link, or a packet that a
Varton steward core built. -/
inductive IngressFrom where
  | dieLink (port : Nat)
  | steward (ticket : BitVec 1024) (data : List Byte)
  deriving DecidableEq, Repr

/-- Which scheduler decides (R321, R323). -/
inductive SchedAt where
  | voq
  | port (d : Nat)
  deriving DecidableEq, Repr

/-- A scheduling element by its register (R317). -/
inductive SchedElem where
  | port (d : Nat)
  | node (n : Nat)
  | eq (e : Nat)
  | voq (q : Nat)
  deriving DecidableEq, Repr

/-- A queue: a VOQ or an egress queue (R290). -/
inductive QueueId where
  | voq (q : Nat)
  | eq (e : Nat)
  deriving DecidableEq, Repr

/-- The kind of a learned-entry change record (R378). -/
inductive ChangeKind where
  | write
  | erase
  deriving DecidableEq, Repr

/-- A learned-entry change record or a copied entry (R378, R387): the lead's change number, the table,
the key nibbles, the data and the ageing timestamp. -/
structure ChangeRec where
  number : Nat
  kind : ChangeKind
  table : Nat
  key : List (BitVec 4)
  data : Word
  ts : Nat
  deriving DecidableEq, Repr

/-- What anneal copies (R386, R387). -/
inductive AnnealItem where
  | entry (rec : ChangeRec)
  | stream (number idx nextSeq recSeq : Nat) (takeAny : Bool) (history : List Bool)
  | bucket (meter c : Nat)
  deriving DecidableEq, Repr

/-- A learn event (R261). -/
structure LearnEv where
  table : Nat
  key : List (BitVec 4)
  kpos : Nat
  data : Word
  realm : Nat
  deriving DecidableEq, Repr

/-- What the twin says of itself when the link comes up (R372). -/
structure TwinPeer where
  id : Nat
  lead : Bool
  epoch : Nat
  suspect : Bool
  seasoned : Bool
  deriving DecidableEq, Repr

/-- Outcome of a block's ECC check (R456). -/
inductive EccResult where
  | good
  | corrected
  | uncorrectable
  deriving DecidableEq, Repr

/-- What a request asks of an HBM controller: a 32-byte block is read, with what its check bytes say, or written. -/
inductive HbmOp where
  | read (ecc : EccResult)
  | write (data : BitVec 256)
  deriving DecidableEq, Repr

/-- A request that a port makes of an HBM controller (R449). -/
structure HbmReq where
  port : Nat
  offset : Nat
  op : HbmOp
  deriving DecidableEq, Repr

/-- The settings of a pseudo-channel (R458): the delay lines of its 32 DQ bits in each direction and of its strobe, in
1/64 UI, and its reference voltage. -/
structure PcTrim where
  readDq : List Int
  writeDq : List Int
  strobe : Int
  vref : Nat
  deriving DecidableEq, Repr

/-- What a full training finds (R459): the stack's identity, its Tcase, the lanes repaired, settings by pseudo-channel,
and the verification's errors by DQ bit. -/
structure TrainRun where
  identity : Nat
  tcase : Int
  lanes : List Nat
  trims : List (Nat × PcTrim)
  errors : List (Nat × Nat)
  deriving DecidableEq, Repr

/-- What a port finds of its link (R468, PT_PORT_STATUS): whether the PCS aligns, the MODE and FEC that the partner
advertises where they negotiate, and the FEC symbols of the last 1 ms with their errors. -/
structure LinkReport where
  up : Bool
  partner : Option (Nat × Nat)
  symbols : Nat
  symbolErrors : Nat
  deriving DecidableEq, Repr

/-- The part of a segment's slot that one NVMe Write writes (R396, R413): zeros over the header block, MiB `i` of the
record area, or the header block. -/
inductive NvmePart where
  | zero
  | area (i : Nat)
  | header
  deriving DecidableEq, Repr

/-- How a host request to send a WAKE finds the endpoint's link (R550). -/
inductive LinkState where
  | l0
  | l1
  | l2l3
  | unpowered
  deriving DecidableEq, Repr

/-- Answer of a remote capture target (R417). -/
inductive RoceAnswer where
  | ack
  | nakSeq
  deriving DecidableEq, Repr

/-- The commands, one constructor per row of spec/opcode_table.json, in the table's order. -/
inductive Instr where
  /-- REGISTER_WRITE (R39). A host, SMBus, start-write or steward write to a register that has no row of its own; each field is clamped and stored as its access code states. -/
  | registerWrite (w : RegWrite)
  /-- RC_READ (R39). A read of an RC field returns its value and clears it to 0. Reads of every other offset of a BAR, which no row of their own names, are this command too. -/
  | rcRead (r : RegRead)
  /-- REALM_DISABLE (R38). Clearing a realm's ENABLE disables its command rings, stops its completions and stops its MSI-X messages. -/
  | realmDisable (agent : Agent) (realm : Nat)
  /-- RING_ENABLE (R57). Enabling a command ring sets its HEAD to TAIL. -/
  | ringEnable (fn k : Nat) (value : Word)
  /-- PUNT_RING_ENABLE (R65). Enabling a realm's punt receive ring sets its HEAD to TAIL. -/
  | puntRingEnable (fn : Nat) (value : Word)
  /-- BUS_MASTER_ENABLE_SET (R595). A function's Bus Master Enable returns to 1, and its waiting commands and descriptor reads resume. -/
  | busMasterEnableSet (fn : Nat)
  /-- NOP (R60). The NOP command, or an undefined opcode clamped to NOP, completes DONE. -/
  | nop (fn k : Nat)
  /-- CSR_READ (R60). A serving thread reads a BAR0 offset as the issuing function and writes the value back. -/
  | csrRead (fn k : Nat)
  /-- CSR_WRITE (R60). A serving thread writes a BAR0 offset as the issuing function and writes back the stored, clamped value. -/
  | csrWrite (fn k : Nat)
  /-- IMAGE_STAGE (R53). A serving thread checks a Sorael image and writes it into the staged coat, and to flash when STANDING is set. -/
  | imageStage (fn k : Nat) (binds : List BindDecl)
  /-- COUNTER_SNAPSHOT (R564). A set of counters taken in one snapshot cycle is copied to host memory. -/
  | counterSnapshot (fn k : Nat)
  /-- RECOAT (R110). A RECOAT command is checked and either refused or accepted, and STATE becomes FLIPPING. -/
  | recoat (fn k : Nat)
  /-- RECOAT_FLIP (R111). In the flip cycle the staged slot becomes active, the generation rises by one, and the dispatchers stamp the new coat. -/
  | recoatFlip
  /-- RECOAT_DRAIN_END (R111). The last old-stamped packet leaves its thread; the old slot becomes staged, the completion is written and the waiting staged accesses are served. -/
  | recoatDrainEnd
  /-- SIGNAL_EVENT (R60). The SIGNAL_EVENT command asserts line 63 of the named steward thread. -/
  | signalEvent (fn k : Nat)
  /-- TABLE_OP_READ (R242). TABLE_OP READ returns the entry of the key that the live or staged view sees. -/
  | tableOpRead (fn k : Nat)
  /-- INSERT (R242). TABLE_OP INSERT writes a key with its data through the live or staged view. -/
  | tableInsert (fn k : Nat)
  /-- DELETE (R242). TABLE_OP DELETE deletes a key in the live or staged view. -/
  | tableDelete (fn k : Nat)
  /-- FLUSH (R242). TABLE_OP FLUSH live-deletes every learned entry of the table whose data matches under the mask. -/
  | tableFlush (fn k : Nat)
  /-- REALIGN (R234). REALIGN makes the staged view equal to the active view for one table, or for everything with ALL. -/
  | realign (fn k : Nat)
  /-- ASSOC_WRITE (R242). ASSOC_WRITE reads a 64-byte entry from host memory and commits it at an associative address. -/
  | assocWrite (fn k : Nat)
  /-- ASSOC_READ (R242). ASSOC_READ writes a committed associative entry to host memory. -/
  | assocRead (fn k : Nat)
  /-- RING_COAL_TIMEOUT (R63). DELAY_US passes after the first unsignalled completion, and the ring's vector is sent. -/
  | ringCoalTimeout (fn k : Nat)
  /-- PUNT_DELIVERY (R65). A packet for host punt destination 192 + n is written to realm n's buffer, then its descriptor, then its message is sent. -/
  | puntDelivery (realm : Nat)
  /-- HALLMARK_PIN_WRITE (R50). A write to SY_HALLMARK.PIN is stored and written to the Lath's flash within 10 ms. -/
  | hallmarkPinWrite (agent : Agent) (pin : Nat)
  /-- BAR2_WRITE (R55). A host write to BAR2 changes the staged coat's code, descriptors, tables or associative entries. -/
  | bar2Write (fn offset : Nat) (width : Width) (value : Word)
  /-- INGRESS_ADMISSION (R68). An arriving frame is classed by its source's first-look rules and admitted to the dispatch buffer or shed. -/
  | ingressAdmission (source : Nat)
  /-- ADMISSION_EPOCH_END (R71). A Henig 1,024 ns epoch ends; admission enters or leaves Shedding and computes the next budget and quotas. -/
  | admissionEpochEnd
  /-- DISPATCH (R76). The ingress or egress dispatcher gives a packet to the slice at its source's or destination's pointer, stamping sequence number and coat. -/
  | dispatch (side : Side) (obj : Nat)
  /-- PARSE_WALK (R188). The slice's parse graph engine walks a packet's headers and writes the parse record. -/
  | parseWalk (slice : Nat)
  /-- THREAD_TAKE_PACKET (R86). A free thread takes a walked packet from its slice's input queue and starts at the coat's entry point. -/
  | threadTakePacket (slice : Nat)
  /-- ADD (R127). ADD writes A + B to D. -/
  | iAdd (t : Tid) (f : FmtA)
  /-- SUB (R127). SUB writes A − B to D. -/
  | iSub (t : Tid) (f : FmtA)
  /-- AND (R127). AND writes A AND B to D. -/
  | iAnd (t : Tid) (f : FmtA)
  /-- OR (R127). OR writes A OR B to D. -/
  | iOr (t : Tid) (f : FmtA)
  /-- XOR (R127). XOR writes A XOR B to D. -/
  | iXor (t : Tid) (f : FmtA)
  /-- ANDN (R127). ANDN writes A AND NOT B to D. -/
  | iAndn (t : Tid) (f : FmtA)
  /-- SHL (R127). SHL shifts A left by B[5:0]. -/
  | iShl (t : Tid) (f : FmtA)
  /-- SHR (R127). SHR shifts A right by B[5:0] with zero fill. -/
  | iShr (t : Tid) (f : FmtA)
  /-- SAR (R127). SAR shifts A right by B[5:0] with sign fill. -/
  | iSar (t : Tid) (f : FmtA)
  /-- MUL (R127). MUL writes the low 64 bits of A × B to D in two slots. -/
  | iMul (t : Tid) (f : FmtA)
  /-- SEL (R127). SEL writes A or B to D according to a predicate. -/
  | iSel (t : Tid) (f : FmtA)
  /-- CLZ (R127). CLZ counts the leading zero bits of A. -/
  | iClz (t : Tid) (f : FmtA)
  /-- BSWAP (R127). BSWAP reverses the bytes of A. -/
  | iBswap (t : Tid) (f : FmtA)
  /-- HASH (R127). HASH computes CRC-32C of A with initial value B. -/
  | iHash (t : Tid) (f : FmtA)
  /-- CSUM (R127). CSUM writes the folded ones'-complement sum of A and B. -/
  | iCsum (t : Tid) (f : FmtA)
  /-- CEQ (R128). CEQ sets a predicate to A = B. -/
  | iCeq (t : Tid) (f : FmtA)
  /-- CNE (R128). CNE sets a predicate to A ≠ B. -/
  | iCne (t : Tid) (f : FmtA)
  /-- CLTU (R128). CLTU sets a predicate to A < B unsigned. -/
  | iCltu (t : Tid) (f : FmtA)
  /-- CLT (R128). CLT sets a predicate to A < B signed. -/
  | iClt (t : Tid) (f : FmtA)
  /-- PLOG (R128). PLOG sets a predicate from a truth table over two predicates. -/
  | iPlog (t : Tid) (f : FmtA)
  /-- PTOG (R128). PTOG copies the predicates into D. -/
  | iPtog (t : Tid) (f : FmtA)
  /-- GTOP (R128). GTOP loads the predicates from A[7:0]. -/
  | iGtop (t : Tid) (f : FmtA)
  /-- LDNV (R136). LDNV loads window nibbles at an offset and width taken from registers. -/
  | iLdnv (t : Tid) (f : FmtA)
  /-- STNV (R136). STNV stores window nibbles at an offset and width taken from registers. -/
  | iStnv (t : Tid) (f : FmtA)
  /-- JR (R156). JR jumps to the word address in A. -/
  | iJr (t : Tid) (f : FmtA)
  /-- CST (R165). CST stores a word with correct parity into the thread's code memory. -/
  | iCst (t : Tid) (f : FmtA)
  /-- ADDI (R129). ADDI adds a sign-extended immediate. -/
  | iAddi (t : Tid) (f : FmtI)
  /-- ANDI (R129). ANDI ANDs a zero-extended immediate. -/
  | iAndi (t : Tid) (f : FmtI)
  /-- ORI (R129). ORI ORs a zero-extended immediate. -/
  | iOri (t : Tid) (f : FmtI)
  /-- XORI (R129). XORI XORs a zero-extended immediate. -/
  | iXori (t : Tid) (f : FmtI)
  /-- SHLI (R129). SHLI shifts left by an immediate. -/
  | iShli (t : Tid) (f : FmtI)
  /-- SHRI (R129). SHRI shifts right by an immediate with zero fill. -/
  | iShri (t : Tid) (f : FmtI)
  /-- SARI (R129). SARI shifts right by an immediate with sign fill. -/
  | iSari (t : Tid) (f : FmtI)
  /-- ORSH (R129). ORSH shifts A left by 12 and ORs the immediate. -/
  | iOrsh (t : Tid) (f : FmtI)
  /-- CEQI (R129). CEQI sets a predicate to A = imm. -/
  | iCeqi (t : Tid) (f : FmtI)
  /-- CLTUI (R129). CLTUI sets a predicate to A < imm unsigned. -/
  | iCltui (t : Tid) (f : FmtI)
  /-- BEXT (R138). BEXT extracts a bit field of A. -/
  | iBext (t : Tid) (f : FmtI)
  /-- BINS (R138). BINS inserts the low bits of A into a bit field of D. -/
  | iBins (t : Tid) (f : FmtI)
  /-- KPUTG (R140). KPUTG appends nibbles of A to the key buffer. -/
  | iKputg (t : Tid) (f : FmtI)
  /-- KSEEK (R140). KSEEK sets KPOS and optionally clears the key buffer beyond it. -/
  | iKseek (t : Tid) (f : FmtI)
  /-- LDL (R144). LDL loads bytes from the core's local memory. -/
  | iLdl (t : Tid) (f : FmtI)
  /-- STL (R144). STL stores bytes to the core's local memory. -/
  | iStl (t : Tid) (f : FmtI)
  /-- RDSYS (R146). RDSYS reads a system value selected by imm. -/
  | iRdsys (t : Tid) (f : FmtI)
  /-- FINS (R142). FINS inserts zero bytes into the packet and adjusts the layer offsets. -/
  | iFins (t : Tid) (f : FmtI)
  /-- FDEL (R142). FDEL deletes bytes from the packet and adjusts the layer offsets. -/
  | iFdel (t : Tid) (f : FmtI)
  /-- MIRR (R161). MIRR makes a mirror copy of the packet for a session. -/
  | iMirr (t : Tid) (f : FmtI)
  /-- FWD (R158). FWD ends the program and retires the packet for release. -/
  | iFwd (t : Tid) (f : FmtI)
  /-- DROP (R159). DROP ends the program and retires the packet as a program drop. -/
  | iDrop (t : Tid) (f : FmtI)
  /-- LDN (R133). LDN loads window nibbles. -/
  | iLdn (t : Tid) (f : FmtN)
  /-- STN (R133). STN stores window nibbles. -/
  | iStn (t : Tid) (f : FmtN)
  /-- KPUTN (R133). KPUTN appends window nibbles to the key buffer. -/
  | iKputn (t : Tid) (f : FmtN)
  /-- LDT (R133). LDT loads ticket bytes. -/
  | iLdt (t : Tid) (f : FmtN)
  /-- STT (R135). STT stores ticket bytes, discarding writes to hardware-written bytes. -/
  | iStt (t : Tid) (f : FmtN)
  /-- LKUP (R147). LKUP sends a table-sequence request to the lookup complex, reserving a reply entry. -/
  | iLkup (t : Tid) (f : FmtC)
  /-- ASRCH (R147). ASRCH sends an associative search request. -/
  | iAsrch (t : Tid) (f : FmtC)
  /-- PMAT (R147). PMAT sends a payload pattern request to the pattern engine. -/
  | iPmat (t : Tid) (f : FmtC)
  /-- MTR (R147). MTR sends a meter charge request. -/
  | iMtr (t : Tid) (f : FmtC)
  /-- CNTA (R147). CNTA adds a packet and bytes to a program counter. -/
  | iCnta (t : Tid) (f : FmtC)
  /-- LEARN (R261). LEARN places a learn event on the learn queue. -/
  | iLearn (t : Tid) (f : FmtC)
  /-- SEND (R147). SEND pushes two words onto a thread-to-thread channel. -/
  | iSend (t : Tid) (f : FmtC)
  /-- RECV (R147). RECV pops one channel entry, blocking while the channel is empty. -/
  | iRecv (t : Tid) (f : FmtC)
  /-- RECVP (R147). RECVP pops one channel entry if there is one, without blocking. -/
  | iRecvp (t : Tid) (f : FmtC)
  /-- BR (R156). BR branches. -/
  | iBr (t : Tid) (f : FmtB)
  /-- BP (R156). BP branches when a predicate equals s. -/
  | iBp (t : Tid) (f : FmtB)
  /-- CALL (R156). CALL writes the return address to g31 and branches. -/
  | iCall (t : Tid) (f : FmtB)
  /-- WEVT (R169). WEVT takes masked pending event bits or blocks until one is set, and takes the active coat slot. -/
  | iWevt (t : Tid) (f : FmtA)
  /-- SEVT (R169). SEVT asserts line 63 of a named steward thread. -/
  | iSevt (t : Tid) (f : FmtA)
  /-- TSTART (R169). TSTART restarts a steward thread stopped by a fault. -/
  | iTstart (t : Tid) (f : FmtA)
  /-- RAISE (R169). RAISE raises interrupt source 512–1023. -/
  | iRaise (t : Tid) (f : FmtA)
  /-- XRD (R169). XRD requests 16 bytes at a system address into a channel. -/
  | iXrd (t : Tid) (f : FmtC)
  /-- XWR (R169). XWR posts an 8-byte write to a system address. -/
  | iXwr (t : Tid) (f : FmtA)
  /-- EVENT_LINE_ASSERT (R90). A steward thread's event line asserts and sets its pending bit, waking a waiting WEVT. -/
  | eventLineAssert (die core thread line : Nat)
  /-- LKUP_REPLY (R202). The lookup complex runs the table sequence and delivers its reply to the named channel. -/
  | lkupReply (req : Nat)
  /-- ASRCH_REPLY (R216). The associative banks answer a search and the reply is delivered. -/
  | asrchReply (req : Nat)
  /-- PMAT_REPLY (R197). The pattern engine scans the payload and delivers the first match. -/
  | pmatReply (req : Nat)
  /-- MTR_REPLY (R309). The meter is charged and the colour is delivered to the channel. -/
  | mtrReply (req : Nat)
  /-- XRD_REPLY (R169). The 16 bytes read by XRD are delivered to the channel. -/
  | xrdReply (req : Nat)
  /-- WATCHDOG_EXPIRY (R98). WATCHDOG_US passes since a packet thread took its packet, and the thread faults with code 4. -/
  | watchdogExpiry (t : Tid)
  /-- FAULT_HANDLER_START (R100). A faulted packet takes a free thread at the fault-handler entry with a fresh watchdog. -/
  | faultHandlerStart (slice : Nat)
  /-- REORDER_RELEASE (R106). A retired packet is released once every earlier sequence number of its source or destination is released. -/
  | reorderRelease (side : Side) (obj : Nat)
  /-- ASSOC_BANK_UPDATE (R220). A queued associative write is applied to its banks in one search slot. -/
  | assocBankUpdate (bank : Nat) (delayed : Nat)
  /-- LEARN_ENGINE_EVENT (R262). The learn engine takes the next event and refreshes, moves or inserts the key, or counts a failure. -/
  | learnEngineEvent
  /-- AGE_TICK (R264). TICK_MS passes and the ageing clock NOW advances by one. -/
  | ageTick
  /-- SWEEP_VISIT (R265). The sweeper visits an ageing slot and issues a compare-and-delete for an entry of age MAX_AGE or more. -/
  | sweepVisit (home slot : Nat) (overrun : Bool)
  /-- AGE_COMPARE_DELETE (R266). A compare-and-delete reaches the entry and deletes it if TS is unchanged, or fails as an age reprieve. -/
  | ageCompareDelete
  /-- ROUTE_CHANGE (R259). Trie maintenance applies a queued route change as one step visible to lookups. -/
  | routeChange
  /-- VRF_MAP_WRITE (R260). A write to LK_VRF_MAP starts moving the VRF's routes to the new group. -/
  | vrfMapWrite (agent : Agent) (family vrf : Nat) (value : BitVec 32)
  /-- BUFFER_REQUEST (R286). A requester port's request walks the pools and takes a reserve or shared buffer, or is refused. -/
  | bufferRequest (reqs : List BufReq)
  /-- BUFFER_RETURN (R279). The last copy of a packet releases its buffer, which returns to its pool. -/
  | bufferReturn (handle : Nat)
  /-- POOL_GEOMETRY_WRITE (R281). A VT_POOL_GEOM write is applied or discarded as a pool geometry refusal. -/
  | poolGeometryWrite (agent : Agent) (pool : Nat) (value : Word)
  /-- OWNER_RESERVE_WRITE (R285). A write to an owner's RSV or HOME takes effect at once and moves its OWED. -/
  | ownerReserveWrite (agent : Agent) (owner word : Nat) (value : Word)
  /-- FRAME_AGE_SWEEP (R292). The background sweep examines a queue head and discards it while its age exceeds LIMIT_US. -/
  | frameAgeSweep (queue : QueueId)
  /-- ASSAY_PASS_END (R297). An assay pass completes and publishes every owner's histogram, oldest buffer and leak state. -/
  | assayPassEnd (lines : List (Nat × Nat))
  /-- ASSAY_VISIT (R295). The assay visits a buffer and adds it to its owner's age bin, marking it stale when old. -/
  | assayVisit (handle : Nat)
  /-- VARTON_INGRESS (R302). A packet from the die link or a steward core passes the destination check, metering, buffer and queue admission, and is enqueued on its VOQ. -/
  | vartonIngress (src : IngressFrom)
  /-- QUEUE_EPOCH_END (R313). A Varton 1,024 ns epoch ends; VOQ admission enters or leaves Shedding and sets new quotas. -/
  | queueEpochEnd
  /-- METER_READ (R310). A meter window READ copies a meter's descriptor into DATA0 and DATA1. -/
  | meterRead (agent : Agent) (window index : Nat)
  /-- METER_WRITE (R310). A meter window WRITE clamps, stores and copies back a meter descriptor. -/
  | meterWrite (agent : Agent) (window index : Nat)
  /-- WRITE_FILL (R310). A meter window WRITE_FILL stores a descriptor and fills every bucket. -/
  | meterWriteFill (agent : Agent) (window index : Nat)
  /-- SCHEDULER_DECISION (R321). A VOQ or egress scheduler chooses an eligible element by DRR and sends its packet. -/
  | schedulerDecision (target : SchedAt)
  /-- WHEEL_RELEASE (R328). At a level-0 slot boundary the timing wheel releases up to 16 due shaper entries. -/
  | wheelRelease
  /-- SHAPER_WRITE (R327). A write to a shaper entry sets its TAT to now and makes it eligible with a full burst. -/
  | shaperWrite (agent : Agent) (entry : Nat) (value : Word)
  /-- SCHED_ELEMENT_WRITE (R324). A write to PRIO, PARENT_LEVEL, PARENT or EN moves an element with its DC from the next cycle. -/
  | schedElementWrite (agent : Agent) (elem : SchedElem) (value : Word)
  /-- DESTINATION_POWER_DOWN (R330). A local destination starts draining; packets not yet enqueued for it are discarded. -/
  | destinationPowerDown (d : Nat)
  /-- DRAIN_END (R330). A draining destination's queues empty or DRAIN_US passes; what remains is discarded and POWER becomes OFF. -/
  | drainEnd (d : Nat)
  /-- DESTINATION_POWER_UP (R332). A powered-down destination returns to ON with every element at DC 0. -/
  | destinationPowerUp (d : Nat)
  /-- CELL_RECEIVE (R351). An arriving cell is checked, reordered in its stream and released to reassembly, relayed, or discarded. -/
  | cellReceive (lane : Nat) (header : BitVec 128) (payload : List Byte)
  /-- REORDER_WINDOW_EXPIRY (R352). WINDOW_US passes without the expected cell; it is declared lost and stored cells are released. -/
  | reorderWindowExpiry (src : Nat) (express : Bool)
  /-- HELLO_TIMER (R340). Every 1 ms an enabled lane sends HELLO. -/
  | helloTimer (lane : Nat)
  /-- HELLO (R340). A received HELLO negotiates the lane's level and brings it UP or REFUSED. -/
  | hello (lane : Nat) (msg : Word)
  /-- LANE_DOWN (R346). A lane's STATE leaves UP and it leaves the spray pattern. -/
  | laneDown (lane : Nat)
  /-- XOFF (R349). A received XOFF stops the destination from accepting bulk cells. -/
  | xoff (dest : Nat)
  /-- XON (R349). A received XON lets the destination accept bulk cells again. -/
  | xon (dest : Nat)
  /-- REQUEST (R355). A class-7 VOQ's REQUEST reaches the destination's grant arbiter. -/
  | request (src dest cells : Nat)
  /-- GRANT_ARBITRATION (R356). Every 4 ns a grant arbiter grants the first requesting module at or after its pointer when G allows. -/
  | grantArbitration (d : Nat)
  /-- GRANT (R357). A received GRANT lets its VOQ send the head packet in the express stream, or a CANCEL is sent. -/
  | grant (dest token : Nat)
  /-- CANCEL (R357). A received CANCEL settles the grant's token and reduces G. -/
  | cancel (src dest token : Nat)
  /-- GRANT_EXPIRY (R357). GRANT_TIMEOUT_US passes on an unsettled grant, which is reclaimed and counted. -/
  | grantExpiry (d token : Nat)
  /-- RETRY_VISIT (R362). Every 1 µs the retry list serves residue targets that are ready and drops those past RETRY_US. -/
  | retryVisit
  /-- HEARTBEAT (R368). Every 10 µs a heartbeat with the lead epoch is sent on every lane that is UP. -/
  | heartbeat
  /-- TWIN_LINK_UP (R372). The twin link comes up and the pair chooses its lead; the follower begins anneal. -/
  | twinLinkUp (peer : TwinPeer)
  /-- TWIN_ENABLE (R373). TN_CTRL.EN set makes the module a follower in FORMING; cleared makes it OFF. -/
  | twinEnable (agent : Agent) (value : Word)
  /-- FORM_TIMEOUT (R373). FORM_MS passes without the twin link, and with AUTO_TAKE the module takes the lead alone. -/
  | formTimeout
  /-- LEAD_LOSS (R374). A PAIRED follower declares its lead lost by missed heartbeats or lane loss and may take the lead. -/
  | leadLoss
  /-- TAKE (R375). CMD = TAKE exchanges roles while paired, or makes a FORMING module lead and ALONE. -/
  | take (agent : Agent)
  /-- YIELD (R375). CMD = YIELD on a paired lead exchanges the roles. -/
  | yield (agent : Agent)
  /-- ANNEAL (R375). CMD = ANNEAL on the follower restarts anneal from its first step. -/
  | anneal (agent : Agent)
  /-- SUSPECT_CLEAR (R391). Clearing SUSPECT on either module clears it on both and restarts the divergence count. -/
  | suspectClear (byTwin : Bool)
  /-- CHANGE_RECORD (R378). The follower applies a learned-entry change record from the lead as a live change. -/
  | changeRecord (rec : ChangeRec)
  /-- REFRESH_RECORD (R379). The lead applies a follower's refresh record as a refresh of the entry. -/
  | refreshRecord (table : Nat) (key : List (BitVec 4))
  /-- STRICT_METER_SYNC (R380). Every 100 µs the lead sends its strict-meter buckets and the follower sets its own. -/
  | strictMeterSync (buckets : List (Nat × Nat))
  /-- DIGEST_RECORD (R390). The lead pairs a decision digest with its own and counts a match or divergence. -/
  | digestRecord (stream rseq : Nat) (digest : BitVec 32)
  /-- COMPARE_TIMEOUT (R390). A digest record unpaired after CMP_US is counted as an unpaired decision. -/
  | compareTimeout (own : Bool) (stream rseq : Nat)
  /-- ANNEAL_MATCH (R386). The modules exchange epochs, generations and coat digests; on a match the follower enters ANNEAL_COPY. -/
  | annealMatch (epoch generation : Nat) (digest : BitVec 256)
  /-- ANNEAL_COPY_COMPLETE (R386). The anneal copy is complete and the follower enters ANNEAL_SHADOW. -/
  | annealCopyComplete
  /-- PAIRED (R386). 100 ms pass with no divergence and SUSPECT 0, and both modules become PAIRED. -/
  | paired
  /-- HOLD_EXPIRY (R385). The oldest held packet of an in-order stream waits HOLD_US and the held packets are released. -/
  | holdExpiry (stream : Nat)
  /-- RECOVERY_RESET (R384). RESET_MS passes with no packet passed, and TAKE_ANY becomes 1. -/
  | recoveryReset (stream : Nat)
  /-- STREAM_READ (R385). TN_STREAM_WIN READ copies a stream's descriptor and state. -/
  | streamRead (agent : Agent) (index : Nat)
  /-- STREAM_WRITE (R385). TN_STREAM_WIN WRITE clamps and stores a stream descriptor. -/
  | streamWrite (agent : Agent) (index : Nat)
  /-- STREAM_RESET (R385). TN_STREAM_WIN RESET sets TAKE_ANY, zeroes NEXT_SEQ, releases held packets and reads. -/
  | streamReset (agent : Agent) (index : Nat)
  /-- SELFTEST_FAILURE (R392). A continuous self-test failure is counted and its unit handled, setting SUSPECT on a paired follower. -/
  | selftestFailure (unit kind : Nat)
  /-- FRESCO_RECORD (R401). Fresco takes a copy from port scheduler 160 and adds its capture record to the open segment. -/
  | frescoRecord
  /-- SEAL_TIMEOUT (R406). SEAL_MS passes since the open segment's first record and it is sealed. -/
  | sealTimeout
  /-- FRESCO_FLUSH (R406). FR_CTRL.CMD FLUSH seals the open segment. -/
  | frescoFlush (agent : Agent)
  /-- NEW_RING (R406). FR_CTRL.CMD NEW_RING sets a new RING_ID and restarts sequences at 1 while EN is 0. -/
  | newRing (agent : Agent)
  /-- NVME_COMPLETION (R413). An NVMe Write completes; the header's success makes the segment durable. -/
  | nvmeCompletion (target seq : Nat) (part : NvmePart) (ok : Bool)
  /-- NVME_TIMEOUT (R414). An NVMe command not completed in 2 s is retried, and a second failure makes the target FAILED. -/
  | nvmeTimeout (target seq : Nat) (part : NvmePart)
  /-- NVME_REMOVAL (R414). Removal of an NVMe controller makes its targets FAILED. -/
  | nvmeRemoval (root : Nat)
  /-- ROCE_ACK (R417). A RoCE ACK or NAK sent to the sink advances, completes or retransmits a segment write. -/
  | roceAck (target psn : Nat) (answer : RoceAnswer)
  /-- ROCE_ACK_TIMEOUT (R417). No acknowledgement within 1 ms causes a go-back-N retransmission, and seven without progress fail the target. -/
  | roceAckTimeout (target : Nat)
  /-- WEAR_POLL (R408). Every 60 s an NVMe target's wear figure is read, and reaching RETIRE_W retires it. -/
  | wearPoll (target percentageUsed : Nat)
  /-- TARGET_ENABLE (R411). Setting a capture target's EN resets or keeps NEXT and BYTES by the Lath's record. -/
  | targetEnable (agent : Agent) (target : Nat) (value : Word)
  /-- SEAL_FRESCO (R419). The Lath's seal action stops the sink, seals the open segment and writes the capture record to flash. -/
  | sealFresco
  /-- HOLDUP_END (R419). HOLDUP_US passes or the last sealed segment is durable, and the Lath writes the record again. -/
  | holdupEnd
  /-- SEAL_RELEASE (R420). The supply recovers and the seal is released; Fresco resumes the chain. -/
  | sealRelease
  /-- SEGMENT_READ (R424). FR_READ READ copies one segment whole to host memory. -/
  | segmentRead (agent : Agent) (badTargets : List Nat)
  /-- VERIFY (R424). FR_READ VERIFY checks a range of segments' digests and chain and reports the first failure. -/
  | verify (agent : Agent) (badTargets : List Nat)
  /-- DIRECTORY_REBUILD (R423). The directory rebuild from target headers completes and DIR_READY becomes 1. -/
  | directoryRebuild
  /-- CHANNEL_START (R426). TW_CH_CTRL CMD START makes an IDLE channel RUNNING or ARMED. -/
  | channelStart (agent : Agent) (c : Nat)
  /-- CHANNEL_RESET (R426). TW_CH_CTRL CMD RESET makes an IDLE, FAULTED or KILLED channel IDLE. -/
  | channelReset (agent : Agent) (c : Nat)
  /-- CHANNEL_KILL (R443). TW_CH_CTRL KILL stops a channel at once and makes it KILLED. -/
  | channelKill (agent : Agent) (c : Nat)
  /-- DOORBELL_RING (R441). A doorbell RING makes a PARKED channel reread its END slot, or sets DB_PEND. -/
  | doorbellRing (fn c : Nat)
  /-- DOORBELL_START (R445). A doorbell START acts as CMD START. -/
  | doorbellStart (fn c : Nat)
  /-- DOORBELL_KILL (R445). A doorbell KILL acts as KILL. -/
  | doorbellKill (fn c : Nat)
  /-- MOVE (R432). A Trowel MOVE begins copying LEN bytes at addresses offset by the loop index. -/
  | twMove (c : Nat) (hostError : Bool)
  /-- MOVE_COMPLETE (R434). A MOVE's last byte is written; a counted MOVE decrements REMAIN and may raise end of count. -/
  | moveComplete (c index : Nat) (hostError : Bool)
  /-- LOOP (R435). A Trowel LOOP opens, iterates or closes its loop. -/
  | twLoop (c : Nat) (hostError : Bool)
  /-- WAIT (R437). A Trowel WAIT proceeds on a pending signal or blocks for a signal or timer tick. -/
  | twWait (c : Nat) (hostError : Bool)
  /-- SIGNAL (R436). A Trowel SIGNAL sets the target's pending bit or starts an ARMED target. -/
  | twSignal (c : Nat) (hostError : Bool)
  /-- LINK (R439). A Trowel LINK continues the program at its target. -/
  | twLink (c : Nat) (hostError : Bool)
  /-- END (R439). A Trowel END halts the channel or parks it awaiting a doorbell. -/
  | twEnd (c : Nat) (hostError : Bool)
  /-- TIMER_TICK (R438). A Trowel timer ticks and releases or starts the channels waiting or armed on it. -/
  | timerTick (timer : Nat)
  /-- TIMER_WRITE (R438). A write to a timer's PERIOD_US restarts its phase. -/
  | timerWrite (agent : Agent) (timer : Nat) (value : Word)
  /-- HBM_REQUEST (R449). An HBM controller serves a port's read or write, waking the stack from idle self-refresh if needed. -/
  | hbmRequest (stack : Nat) (done : List (Nat × Nat)) (reqs : List HbmReq)
  /-- REFRESH (R452). A bank's per-bank refresh falls due and takes the bank first. -/
  | refresh (stack bank : Nat)
  /-- IDLE_SELF_REFRESH (R453). A stack idle for IDLE_US enters self-refresh. -/
  | idleSelfRefresh (stack : Nat)
  /-- PATROL_SCRUB (R455). The patrol scrub reads a block, corrects it and writes it back. -/
  | patrolScrub (stack offset : Nat) (ecc : EccResult)
  /-- TRAINING_START (R461). Training starts on all three stacks after the dies leave reset. -/
  | trainingStart
  /-- FAST_TRAINING (R460). Fast training from a stored record completes, or falls back to full training. -/
  | fastTraining (stack : Nat) (identity : Nat) (tcase : Int) (errors : List (Nat × Nat))
  /-- FULL_TRAINING (R459). Full training completes and its training record is written, or the stack becomes FAILED. -/
  | fullTraining (stack : Nat) (run : TrainRun)
  /-- STROBE_TRACKING (R462). Every 100 ms the firmware rechecks each strobe and moves its delay by at most one step. -/
  | strobeTracking (stack pc : Nat) (later : Option Bool)
  /-- POST_PACKAGE_REPAIR (R463). A candidate row is copied, soft-repaired and rewritten, or counted as repair exhausted. -/
  | postPackageRepair (stack bank row : Nat)
  /-- RETIRE_GO (R465). HB_RETIRE GO starts migration of a stack channel's granules. -/
  | retireGo (agent : Agent) (stack channel yieldTo : Nat)
  /-- MIGRATION_COMPLETE (R465). Channel migration ends and the retirement is written to flash and the life record. -/
  | migrationComplete (stack granules : Nat)
  /-- FRAME_RECEIVE (R474). A frame arrives at a MAC port, is timestamped and MACsec-validated, or is a pre-service discard. -/
  | frameReceive (source : Nat) (data : List Byte)
  /-- FRAME_TRANSMIT (R484). An egress frame is encrypted, its time action applied and transmitted. -/
  | frameTransmit (dest : Nat) (warnLine : Option Nat)
  /-- LANE_LOCK (R489). A lane first gains clock lock and starts initial receive adaptation. -/
  | laneLock (lane : Nat)
  /-- ADAPTATION_COMPLETE (R489). Initial receive adaptation completes and LINK may become 1. -/
  | adaptationComplete (lane : Nat) (aligned : Bool)
  /-- ADAPTATION_CYCLE (R490). A continuous adaptation cycle moves each equaliser setting by at most one step. -/
  | adaptationCycle (lane : Nat) (moves : List (Nat × Bool))
  /-- LINK_CHANGE (R488). A port's LINK changes, bringing FlexE clients up or down and squelching SyncE. -/
  | linkChange (port : Nat) (report : LinkReport)
  /-- CALENDAR_SWITCH (R470). SWITCH requests the OIF calendar switch on every member PHY of a FlexE group. -/
  | calendarSwitch (agent : Agent) (group : Nat)
  /-- CALENDAR_SWITCH_DONE (R470). After the partner's acknowledgement the new calendar takes effect at a calendar boundary. -/
  | calendarSwitchDone (group : Nat)
  /-- SA_READ (R477). PT_SA_WIN READ copies an SA descriptor, with KEY reading 0. -/
  | saRead (agent : Agent) (index : Nat)
  /-- SA_WRITE (R477). PT_SA_WIN WRITE clamps and stores an SA descriptor. -/
  | saWrite (agent : Agent) (index : Nat)
  /-- SET (R481). PT_TIME_ADJ SET loads the time base with VALUE. -/
  | timeSet (agent : Agent)
  /-- STEP (R481). PT_TIME_ADJ STEP adds a signed VALUE to the time base and records the step. -/
  | timeStep (agent : Agent)
  /-- PPS_EDGE (R482). A PPS input edge is measured and the time base stepped or slewed, possibly setting VALID. -/
  | ppsEdge (slew : Int)
  /-- PPS_OUT_EDGE (R487). The PPS output rises at a whole second of the time base. -/
  | ppsOutEdge
  /-- TS_FIFO_READ (R486). A read of PT_TS_FIFO returns and removes the oldest timestamp entry, latching its time. -/
  | tsFifoRead (agent : Agent) (port : Nat)
  /-- RETIRE (R495). SY_SVC_CMD RETIRE takes a slice, bank or lane out of service, with a spare when one is free. -/
  | retire (agent : Agent) (unit : Nat) (nosub : Bool)
  /-- REINSTATE (R506). SY_SVC_CMD REINSTATE starts a unit's SELFTEST, LOAD, SHADOW and ADMIT stages. -/
  | reinstate (agent : Agent) (unit : Nat)
  /-- ABORT (R506). SY_SVC_CMD ABORT makes a reinstating unit OUT. -/
  | abort (agent : Agent) (unit : Nat)
  /-- SLICE_DRAIN_END (R495). A retiring slice holds no packet; it becomes OUT and the spare IN_SERVICE. -/
  | sliceDrainEnd (slice : Nat)
  /-- BANK_SPARE_LOADED (R501). A spare bank holds every entry and answers for the retired bank from the next cycle. -/
  | bankSpareLoaded (bank : Nat)
  /-- LANE_RETIRE_WINDOW_END (R503). WINDOW_US after a lane retirement the lane goes DOWN and stops training. -/
  | laneRetireWindowEnd (lane : Nat)
  /-- STAGE_COMPLETE (R506). A reinstatement stage ends; the unit passes to the next stage, is admitted, or becomes FAILED. -/
  | stageComplete (unit : Nat) (ok : Bool)
  /-- SHADOW_COMPARE (R508). A shadow copy and its real packet have both ended and their CRCs are compared. -/
  | shadowCompare (unit : Nat) (copy : Nat)
  /-- COLUMN_REPAIR (R504). An SRAM column repair completes and reads switch to the spare column. -/
  | columnRepair (die array column : Nat)
  /-- PHASE_CHECK (R505). Every 100 µs the Lath compares phase currents and substitutes the spare for a failing phase. -/
  | phaseCheck (rail : Nat) (currents : List Nat) (faults : List Bool)
  /-- LIFE_RECORD_HOURLY (R520). Every hour the Lath writes the calendar, hours and thermal histogram to flash. -/
  | lifeRecordHourly
  /-- VIN_VALID (R522). VIN stands at or above 5.5 V for 2 ms and becomes valid. -/
  | vinValid
  /-- VIN_LOSS (R524). VIN is lost; every rail is disabled at once and the module becomes Dormant. -/
  | vinLoss
  /-- VIN_LOW (R524). VIN falls below 5.5 V without loss, and the event is logged and counted. -/
  | vinLow (low : Bool)
  /-- VIN_SURGE (R524). VIN rises above 45 V within surge limits, and the event is logged and counted. -/
  | vinSurge (above : Bool)
  /-- VIN_OVERVOLTAGE (R524). VIN stays above 45 V beyond 100 ms or exceeds 60 V, and is treated as VIN loss. -/
  | vinOvervoltage
  /-- VAUX_VALID (R523). VAUX becomes valid and the Lath starts within 12 ms. -/
  | vauxValid
  /-- VAUX_LOSS (R523). VAUX is lost; the Lath stops and the module is Off. -/
  | vauxLoss
  /-- LOCKSTEP_RESET (R524). A Lath lockstep mismatch resets the Lath with the rails held, and it resumes and logs it. -/
  | lockstepReset
  /-- RAIL_IN_REGULATION (R525). A rail reaches regulation and the next rail in order starts. -/
  | railInRegulation (rail : Nat)
  /-- RAIL_TIMEOUT (R526). A rail not in regulation within 10 ms ends the start and the module becomes Dormant. -/
  | railTimeout (rail : Nat)
  /-- ADC_SAMPLE (R529). A Lath ADC channel takes a sample and the rules on it are evaluated. -/
  | adcSample (channel : Nat) (value : Int)
  /-- STACK_THROTTLE_STEP (R533). Every 10 ms or 100 ms a hot stack's throttle level rises or falls by one. -/
  | stackThrottleStep (stack : Nat)
  /-- RULE_WRITE (R530). A write to a rule releases it with its release effect, restarts it and writes it to flash. -/
  | ruleWrite (agent : Agent) (rule word : Nat) (value : Word)
  /-- CHANNEL_SOURCE_WRITE (R528). A write changing an ADC channel's SOURCE or RATE clears its sample history. -/
  | channelSourceWrite (agent : Agent) (channel : Nat) (value : Word)
  /-- POWER_TRANSITION (R537). The power target changes and the Lath begins the transition to it. -/
  | powerTransition
  /-- SLICE_POWER_DOWN (R538). A SLICE_OFF bit set stops dispatch to the slice and empties its position. -/
  | slicePowerDown (slice : Nat)
  /-- SLICE_POWER_DOWN_TIMEOUT (R538). 20 µs after power-down, packets still in threads are discarded and the slice is unpowered. -/
  | slicePowerDownTimeout (slice : Nat)
  /-- SLICE_POWER_UP (R539). A cleared SLICE_OFF bit powers the slice up through BIST and LOAD into a position or as spare. -/
  | slicePowerUp (slice : Nat) (bistOk : Bool)
  /-- HOLDOVER_ENTRY_DRAIN_END (R543). Drains and Fresco flush end; packets in the stacks are discarded and the module enters Holdover. -/
  | holdoverEntryDrainEnd
  /-- HOLDOVER_RETURN (R544). The module returns from Holdover to Partial or Full, releasing the stacks and restoring units. -/
  | holdoverReturn
  /-- DORMANT_ENTRY (R545). After drains end, the dies are held in reset and the rails go down into Dormant. -/
  | dormantEntry
  /-- DORMANT_TO_HOLDOVER (R546). From Dormant the rails rise, stacks fast-train and the holdover coat loads and becomes active. -/
  | dormantToHoldover (flash0 flash1 : Bool)
  /-- STANDING_COAT_LOADED (R547). The background load of the standing coat into the staged slot completes. -/
  | standingCoatLoaded
  /-- PERST_ASSERT (R548). PERST# assertion resets the endpoint's functions and host-facing registers and stops every ring. -/
  | perstAssert
  /-- PERST_DEASSERT (R549). PERST# deassertion starts endpoint training, answered with retry status until ready. -/
  | perstDeassert
  /-- ENDPOINT_READY (R549). The endpoint becomes ready and completes configuration requests normally. -/
  | endpointReady
  /-- WAKE_REQUEST (R550). A wake request is recorded, sends PM_PME or drives WAKE# low by the link state. -/
  | wakeRequest (rule : Nat) (link : LinkState) (resuming : Bool)
  /-- LINK_L0 (R550). The PCIe link reaches L0 and the pending wake request is cleared. -/
  | linkL0
  /-- HOST_RESUME (R551). A host-begun resume proceeds and holds any wake request without a further WAKE#. -/
  | hostResume
  /-- LATH_START (R555). The Lath starts and loads the life record, rule table and capture record; `straps` are ADDR[1:0], which it samples (R584). -/
  | lathStart (straps : Nat)
  /-- DIE_RESET_EXIT (R554). The dies leave reset and the coat's start writes are applied in order. -/
  | dieResetExit
  /-- REFCLK_STABLE (R576). REFCLK_SYS becomes stable for 1 ms after being absent, and the dies leave reset. -/
  | refclkStable
  /-- COAT_LOAD (R553). The Lath loads and checks the standing coat, falling back to the base coat on failure. -/
  | coatLoad (flash0 flash1 : Bool)
  /-- COAT_ACTIVE (R555). The loaded coat becomes active; steward threads start, SERVICE_READY becomes 1 and ports enter service. -/
  | coatActive
  /-- SMBUS_BLOCK_WRITE (R536). SMBus Block Write 0x10 writes a value at an LT offset with owner privilege; `address` is the
  7-bit address of the message, here and below. -/
  | smbusBlockWrite (address offset : Nat) (width : Width) (value : Word) (pecOk : Bool)
  /-- SMBUS_SET_OFFSET (R536). SMBus Block Write 0x11 sets the read offset. -/
  | smbusSetOffset (address offset : Nat) (pecOk : Bool)
  /-- SMBUS_BLOCK_READ (R536). SMBus Block Read 0x12 returns 8 bytes at the read offset and advances it. -/
  | smbusBlockRead (address : Nat)
  /-- PC_FILTER_WRITE (R562). A write to a realm's PC_FILTER clears its bank and counts under the new filter from the next cycle. -/
  | pcFilterWrite (fn word : Nat) (value : Word)
  /-- HEALTH_REPORT (R566). Every 100 ms a health report is composed and written to the host, the twin and the Lath. -/
  | healthReport
  /-- TWIN_REPORT_RECEIVE (R568). A health report arriving from the twin replaces TN_TWIN_REPORT whole. -/
  | twinReportReceive (report : List Byte)
  /-- BUS_MASTER_ENABLE_CLEAR (R595). A function's Bus Master Enable becomes 0; its descriptor reads stop, its running commands wait at their next host access, and its punt ring loses room. -/
  | busMasterEnableClear (fn : Nat)
  /-- HEARTBEAT_RECEIVED (R371). A heartbeat from the twin arrives, updating the follower's lead epoch and restarting the HB_MISS count of R374. -/
  | heartbeatReceived (epoch : Nat) (suspect : Bool)
  /-- TWIN_LEARN_EVENT (R378). A learn event sent by the follower arrives at the lead and joins the lead's learn engine in arrival order. -/
  | twinLearnEvent (ev : LearnEv)
  /-- ANNEAL_TRANSFER (R387). A copied learned entry or stream state arrives at the annealing follower and is applied unless a higher-numbered change record for the key was already applied. -/
  | annealTransfer (item : AnnealItem)
  /-- TWIN_RECOAT_DIGEST (R386). The twin's coat digest, sent at its recoat completion, arrives and is checked against this module's, counting a coat mismatch when they differ. -/
  | twinRecoatDigest (digest : BitVec 256)
  /-- COAT_MISMATCH_TIMEOUT (R513). A coat mismatch found while PAIRED still stands 10 s later, and the lead sets SUSPECT. -/
  | coatMismatchTimeout
  /-- CLOCK_LOCK_LOSS (R488). A line lane loses receive clock lock; its LOCKED bit clears and a SyncE output that takes its clock from the lane is squelched. -/
  | clockLockLoss (lane : Nat)
  /-- XTAL_FAIL (R524). The Lath's 32.768 kHz crystal stops; XTAL_FAIL is set and the Lath runs on from its RC oscillator at ±2 %. -/
  | xtalFail
  /-- SRAM_SCRUB (R504). The SRAM scrub reads a word of an on-die array and corrects it, so that a column reaching 4 corrected errors in 24 h begins a column repair. -/
  | sramScrub (die array column : Nat) (ecc : EccResult)
  deriving DecidableEq, Repr

end Sys2Proof
end

