-- ==== Sys2Proof/Decode.lean ====
section
/-! DEFINITION. The opcode table gives no row any bits: commands reach the module as accesses, lanes and pins, and
no word spells one. -/

namespace Sys2Proof

/-- The command that a word spells by the opcode table's bits. No row of the table gives bits, so no word spells a
command. (The encodings of the packet instructions, R121, are operands of their commands.) -/
def decodeTableWord (_nbits _w : Nat) : Option Instr := none

end Sys2Proof
end

