-- ==== Sys2Proof/Config.lean ====
section
/-! DEFINITION. What the manual leaves open: free values, opaque constants nothing can evaluate. Each
is named in a row of notes/assumptions. -/

namespace Sys2Proof.Config

/-- A fresh free value: destination bytes of a Trowel MOVE the manual calls undefined (R431, R432,
R443), fields that read undefined until RESET (R443). Applied to the counter `State.free`. -/
opaque freeWord : Nat → Word

/-- The ns by which Henig's origin of time precedes Varton's; R594 bounds it by 100 ns and states no
closer relation. -/
opaque dieSkew : Int

/-- Spare columns, beyond the first, of on-die SRAM array `array` of a die (0 Henig, 1 Varton): every array carries some,
and R504 states no number. -/
opaque spareColumns : Nat → Nat → Nat

/-- Stack C block in which slot `n` of the tables lies, and the one that holds level `j` of the trie for route unit `u`:
the manual lays out neither (R14, R257). -/
opaque slotBlock : Nat → Nat
opaque trieBlock : Nat → Nat → Nat

/-- Interval at which a bank is refreshed at a stack temperature, in ns: the HBM3E standard sets it (R452). -/
opaque refreshNs : Int → Nat

/-- Time for which a window's operation runs, in ns; R310 bounds it by 1 µs and states no more. -/
opaque windowNs : Nat

/-- The namespace of NVMe target `t` has logical blocks of 4,096 bytes, and not 512 (R412); the drive says which. -/
opaque bigBlocks : Nat → Bool

end Sys2Proof.Config
end

