-- ==== Sys2Proof/Machine/Base.lean ====
section
/-! DEFINITION. Plain helpers of the model: pairing of indices into one key, the sparse store's read and
write, bit fields of numbers, byte and nibble strings (R8, R9), CRC-32C and SHA-256. -/

namespace Sys2Proof.Machine

/-- Two indices as one key; different pairs have different keys. -/
def pairKey (a b : Nat) : Nat := if a < b then b * b + a else a * a + a + b

/-- The two indices of a key. -/
def unpair (k : Nat) : Nat × Nat :=
  let r := Nat.sqrt k
  let d := k - r * r
  if d < r then (d, r) else (r, d - r)

/-- Three indices as one key. -/
def tripleKey (a b c : Nat) : Nat := pairKey (pairKey a b) c

/-- 1 for true, 0 for false: a flag as a register shows it. -/
def flag (b : Bool) : Nat := if b then 1 else 0

/-! ### The sparse store -/

/-- What key `k` holds: its entry, or `d` when no entry is listed. -/
def Sparse.get {α : Type} (d : α) : Sparse α → Nat → α
  | [], _ => d
  | (a, v) :: m, k => if a = k then v else Sparse.get d m k

/-- Insert an entry before the first greater key. -/
def Sparse.insert {α : Type} : Sparse α → Nat → α → Sparse α
  | [], k, v => [(k, v)]
  | (a, w) :: m, k, v => if a < k then (a, w) :: Sparse.insert m k v else (k, v) :: (a, w) :: m

/-- Replace key `k`'s entry by `v`; `none` removes it. Rising keys stay rising. -/
def Sparse.put {α : Type} (m : Sparse α) (k : Nat) (v : Option α) : Sparse α :=
  let r := m.filter (fun e => decide (e.1 ≠ k))
  match v with
  | none => r
  | some x => Sparse.insert r k x

/-- Store `v` at `k`; the default value leaves no entry. -/
def Sparse.set {α : Type} [DecidableEq α] (d : α) (m : Sparse α) (k : Nat) (v : α) : Sparse α :=
  Sparse.put m k (if v = d then none else some v)

/-- Store under `k` what `f` makes of what `k` holds. -/
def Sparse.upd {α : Type} [DecidableEq α] (d : α) (m : Sparse α) (k : Nat) (f : α → α) : Sparse α :=
  Sparse.set d m k (f (Sparse.get d m k))

/-- The store with `f` of every entry; what becomes the default is no entry. -/
def Sparse.mapAll {α : Type} [DecidableEq α] (d : α) (f : α → α) (m : Sparse α) : Sparse α :=
  m.filterMap (fun e => if f e.2 = d then none else some (e.1, f e.2))

/-- The keys rise strictly. -/
def Sparse.rising {α : Type} : Sparse α → Bool
  | [] => true
  | [_] => true
  | (a, _) :: (b, w) :: m => decide (a < b) && Sparse.rising ((b, w) :: m)

/-- The canonical form: keys rise and no entry equals the default. -/
def Sparse.wf {α : Type} [DecidableEq α] (d : α) (m : Sparse α) : Bool :=
  Sparse.rising m && m.all (fun e => decide (e.2 ≠ d))

/-! ### Bit fields -/

/-- Bits `lo` upward of `v`, `len` of them. -/
def bitsOf (v lo len : Nat) : Nat := (v >>> lo) % 2 ^ len

/-- `v` with its `len` bits from `lo` replaced by the low bits of `f`. -/
def putBits (v lo len f : Nat) : Nat :=
  v - (bitsOf v lo len) <<< lo + (f % 2 ^ len) <<< lo

/-- Bit `i` of `v`. -/
def bitAt (v i : Nat) : Bool := Nat.testBit v i

/-- `v` with bit `i` set to `b`. -/
def setBit (v i : Nat) (b : Bool) : Nat := putBits v i 1 (flag b)

/-- The numbers below `n` whose bit of `v` is 1, rising. -/
def bitsSet (v n : Nat) : List Nat := (List.range n).filter (bitAt v ·)

/-- Saturating addition below `2 ^ w`. -/
def satAdd (w a b : Nat) : Nat := min (a + b) (2 ^ w - 1)

/-- A number limited to `[lo, hi]` (R40). -/
def clampRange (lo hi v : Nat) : Nat := if v < lo then lo else if hi < v then hi else v

/-- R40's rule for `[lo, hi] step st`. -/
def clampStep (lo hi st v : Nat) : Nat :=
  clampRange ((lo + st - 1) / st * st) (hi / st * st) (v / st * st)

/-- A `w`-bit number read as two's complement. -/
def signed (w v : Nat) : Int := if v < 2 ^ (w - 1) then (v : Int) else (v : Int) - 2 ^ w

/-- An integer as `w` bits of two's complement. -/
def unsigned (w : Nat) (v : Int) : Nat := (v % (2 ^ w : Int)).toNat

/-! ### Byte strings -/

/-- `n` bytes of `v`, least significant first (R9). -/
def leBytes : Nat → Nat → List Byte
  | 0, _ => []
  | n + 1, v => BitVec.ofNat 8 v :: leBytes n (v / 256)

/-- The number a byte string spells, least significant byte first. -/
def leNat : List Byte → Nat
  | [] => 0
  | b :: bs => b.toNat + 256 * leNat bs

/-- The number a byte string spells, most significant byte first. -/
def beNat (bs : List Byte) : Nat := bs.foldl (fun a b => a * 256 + b.toNat) 0

/-- `n` bytes of `v`, most significant first. -/
def beBytes (n v : Nat) : List Byte := (leBytes n v).reverse

/-- Bytes `i` to `i + n - 1`; bytes beyond the string read as 0. -/
def slice (bs : List Byte) (i n : Nat) : List Byte :=
  let t := (bs.drop i).take n
  t ++ List.replicate (n - t.length) 0

/-- `bs` with the bytes from `i` replaced by `new`; a shorter string grows with zeros. -/
def splice (bs : List Byte) (i : Nat) (new : List Byte) : List Byte :=
  slice bs 0 i ++ new ++ bs.drop (i + new.length)

/-- Little-endian field of a byte string: bytes `i` to `i + n - 1`. -/
def leAt (bs : List Byte) (i n : Nat) : Nat := leNat (slice bs i n)

/-! ### Nibble strings (R8) -/

/-- The nibbles of a byte string, nibble 0 first. -/
def nibsOfBytes : List Byte → List (BitVec 4)
  | [] => []
  | b :: bs => BitVec.ofNat 4 (b.toNat / 16) :: BitVec.ofNat 4 b.toNat :: nibsOfBytes bs

/-- The byte string of an even number of nibbles; an odd last nibble fills bits [7:4]. -/
def bytesOfNibs : List (BitVec 4) → List Byte
  | [] => []
  | [a] => [BitVec.ofNat 8 (a.toNat * 16)]
  | a :: b :: ns => BitVec.ofNat 8 (a.toNat * 16 + b.toNat) :: bytesOfNibs ns

/-- The number a nibble string spells, first nibble most significant. -/
def nibsNat (ns : List (BitVec 4)) : Nat := ns.foldl (fun a b => a * 16 + b.toNat) 0

/-- `n` nibbles of `v`, most significant first. -/
def natNibs (n v : Nat) : List (BitVec 4) :=
  (List.range n).map (fun i => BitVec.ofNat 4 (v >>> (4 * (n - 1 - i))))

/-- Nibbles `i` to `i + n - 1` of a nibble string; beyond its end they read 0. -/
def nibSlice (ns : List (BitVec 4)) (i n : Nat) : List (BitVec 4) :=
  let t := (ns.drop i).take n
  t ++ List.replicate (n - t.length) 0

/-- `ns` with the nibbles from `i` replaced by `new`. -/
def nibSplice (ns : List (BitVec 4)) (i : Nat) (new : List (BitVec 4)) : List (BitVec 4) :=
  nibSlice ns 0 i ++ new ++ ns.drop (i + new.length)

/-! ### Lists -/

/-- `l` with element `i` made `f` of itself. -/
def modifyAt {α : Type} (f : α → α) : List α → Nat → List α
  | [], _ => []
  | x :: xs, 0 => f x :: xs
  | x :: xs, i + 1 => x :: modifyAt f xs i

/-- `l` with element `i` replaced. -/
def setAt {α : Type} (l : List α) (i : Nat) (v : α) : List α := modifyAt (fun _ => v) l i

/-- The elements of `l` before the first that `p` holds of, that element, and the rest. -/
def splitAtFirst {α : Type} (p : α → Bool) : List α → Option (List α × α × List α)
  | [] => none
  | x :: xs =>
    if p x then some ([], x, xs)
    else (splitAtFirst p xs).map (fun r => (x :: r.1, r.2.1, r.2.2))

/-- Remove the first element that `p` holds of. -/
def removeFirst {α : Type} (p : α → Bool) : List α → List α
  | [] => []
  | x :: xs => if p x then xs else x :: removeFirst p xs

/-- Replace the first element that `p` holds of by `f` of it. -/
def updateFirst {α : Type} (p : α → Bool) (f : α → α) : List α → List α
  | [] => []
  | x :: xs => if p x then f x :: xs else x :: updateFirst p f xs

/-- The sum of a list of numbers. -/
def sumOf (l : List Nat) : Nat := l.foldl (· + ·) 0

/-- The least number of a list, 0 for an empty one. -/
def leastOf : List Nat → Nat
  | [] => 0
  | x :: xs => xs.foldl min x

/-- The greatest number of a list, 0 for an empty one. -/
def greatestOf (l : List Nat) : Nat := l.foldl max 0

/-! ### Checksums and digests -/

/-- One bit of a reflected CRC-32C (polynomial 0x1EDC6F41). -/
def crc32cBit (c : Nat) : Nat := if c % 2 = 1 then (c / 2) ^^^ 0x82F63B78 else c / 2

/-- One byte of a reflected CRC-32C. -/
def crc32cByte (c b : Nat) : Nat :=
  crc32cBit (crc32cBit (crc32cBit (crc32cBit (crc32cBit (crc32cBit (crc32cBit (crc32cBit (c ^^^ b))))))))

/-- The reflected CRC-32C register run over bytes from `init`, with no final inversion. -/
def crc32cRun (init : Nat) (bs : List Byte) : Nat := bs.foldl (fun c b => crc32cByte c b.toNat) init

/-- CRC-32C of a byte string, as the standard gives it: from all ones, inverted at the end. -/
def crc32c (bs : List Byte) : Nat := crc32cRun 0xFFFFFFFF bs ^^^ 0xFFFFFFFF

/-- The greatest `r` below `2 ^ n` with `r ^ k` at most `v`, its bits from the top downward; `r` so far has zeros in
its lower `n` bits. -/
def rootBits (k v : Nat) : Nat → Nat → Nat
  | 0, r => r
  | n + 1, r => rootBits k v n (if (r + 2 ^ n) ^ k ≤ v then r + 2 ^ n else r)

/-- The first 32 fraction bits of the `k`-th root of `p`, which is below 16 (FIPS 180-4 takes its constants so). -/
def rootFraction (k p : Nat) : Nat := rootBits k (p * 2 ^ (32 * k)) 37 0 % 2 ^ 32

/-- The primes below `n`. -/
def primesBelow (n : Nat) : List Nat :=
  (List.range n).filter (fun p => decide (2 ≤ p) && (List.range p).all (fun d => d < 2 || p % d != 0))

/-- The round constants of SHA-256: cube roots of the 64 primes up to 311 (FIPS 180-4). -/
def shaK : List Nat := (primesBelow 312).map (rootFraction 3)

/-- The initial hash value of SHA-256: square roots of the 8 primes up to 19 (FIPS 180-4). -/
def shaInit : List Nat := (primesBelow 20).map (rootFraction 2)

/-- Rotate a 32-bit number right. -/
def rotr32 (x n : Nat) : Nat := ((x >>> n) ||| (x <<< (32 - n))) % 2 ^ 32

/-- The 64-word message schedule, newest word first, from the block's 16 words newest first. -/
def shaSchedule : Nat → List Nat → List Nat
  | 0, w => w
  | n + 1, w =>
    let x := w.getD 14 0
    let y := w.getD 1 0
    let s0 := rotr32 x 7 ^^^ rotr32 x 18 ^^^ (x >>> 3)
    let s1 := rotr32 y 17 ^^^ rotr32 y 19 ^^^ (y >>> 10)
    shaSchedule n ((w.getD 15 0 + s0 + w.getD 6 0 + s1) % 2 ^ 32 :: w)

/-- One round on the eight working words. -/
def shaRound (h : List Nat) (kw : Nat × Nat) : List Nat :=
  match h with
  | [a, b, c, d, e, f, g, i] =>
    let s1 := rotr32 e 6 ^^^ rotr32 e 11 ^^^ rotr32 e 25
    let ch := (e &&& f) ^^^ ((0xFFFFFFFF ^^^ e) &&& g)
    let t1 := i + s1 + ch + kw.1 + kw.2
    let s0 := rotr32 a 2 ^^^ rotr32 a 13 ^^^ rotr32 a 22
    let mj := (a &&& b) ^^^ (a &&& c) ^^^ (b &&& c)
    [(t1 + s0 + mj) % 2 ^ 32, a, b, c, (d + t1) % 2 ^ 32, e, f, g]
  | _ => h

/-- The big-endian 32-bit words of a byte string. -/
def beWords : List Byte → List Nat
  | a :: b :: c :: d :: bs => beNat [a, b, c, d] :: beWords bs
  | _ => []

/-- The hash value after one 64-byte block. -/
def shaBlock (h : List Nat) (blk : List Byte) : List Nat :=
  let ws := (shaSchedule 48 (beWords blk).reverse).reverse
  let r := (shaK.zip ws).foldl shaRound h
  (h.zip r).map (fun p => (p.1 + p.2) % 2 ^ 32)

/-- Hash `n` whole blocks of a padded message. -/
def shaBlocks : Nat → List Nat → List Byte → List Nat
  | 0, h, _ => h
  | n + 1, h, bs => shaBlocks n (shaBlock h (bs.take 64)) (bs.drop 64)

/-- SHA-256 of a byte string, its first byte in bits [255:248]. -/
def sha256 (bs : List Byte) : Nat :=
  let n := bs.length
  let z := (119 - n % 64) % 64
  let msg := bs ++ [0x80] ++ List.replicate z 0 ++ beBytes 8 (8 * n)
  (shaBlocks ((n + 9 + z) / 64) shaInit msg).foldl (fun a w => a * 2 ^ 32 + w) 0

/-- SHA-256 of a byte string as its 32 bytes. -/
def sha256Bytes (bs : List Byte) : List Byte := beBytes 32 (sha256 bs)

end Sys2Proof.Machine
end

