-- ==== Sys2Proof/Machine/Reg.lean ====
section
/-! DEFINITION. The register map as the manual's register tables give it: one name per register family,
its offset, its instances, its realm view, and each field's access code, reset value and clamp.
A clamp that depends on another field or on the module is marked `special` here and written out in
Machine/Clamps.lean. -/

namespace Sys2Proof.Machine

/-- A register family, by the manual's name. -/
inductive Reg where
  | SY_REFUSED_ACCESS
  | SY_REALM_CTRL
  | SY_INT_ROUTE
  | SY_ABI_SELECT
  | SY_HALLMARK
  | SY_IMAGE_STATUS
  | SY_RING_BASE
  | SY_RING_PTRS
  | SY_RING_COAL
  | SY_PUNT_BASE
  | SY_PUNT_PTRS
  | HN_ADM_CTRL
  | HN_ADM_SRC
  | HN_ADM_RULE
  | HN_DISP_CTRL
  | HN_FAULT_HEAD
  | SY_COAT_STATUS
  | LK_ASSOC_CFG
  | LK_GANG
  | LK_BANK_MODE
  | LK_BANK_OOS
  | LK_TABLE_WIN
  | LK_VRF_MAP
  | LK_LPM_STATUS
  | LK_LEARN_CTRL
  | LK_AGE_CTRL
  | VT_POOL_GEOM
  | VT_POOL_POLICY
  | VT_POOL_STAT
  | VT_OWNER
  | VT_EGR_OWNER
  | VT_OWNER_STAT
  | VT_VOQ_AGE
  | VT_EQ_AGE
  | VT_BUF_CTRL
  | VT_ASSAY_STATUS
  | VT_ASSAY
  | VT_MTR_WIN
  | VT_TPROF
  | VT_QADM_CTRL
  | VT_QADM_STAT
  | VT_PORT
  | VT_NODE
  | VT_EQ
  | VT_DEST
  | VT_VOQ
  | VT_SHAPER
  | VT_DRAIN_CTRL
  | FB_MODE
  | FB_LINK
  | FB_FC_CTRL
  | FB_REORDER_CTRL
  | FB_EXPRESS
  | FB_REPL_CTRL
  | FB_GROUP
  | FB_REPL
  | FB_MSESS
  | FB_MSRC
  | FB_MDST
  | TN_CTRL
  | TN_STATUS
  | TN_STREAM_WIN
  | TN_DIV
  | FR_TARGET
  | FR_TEMPLATE
  | FR_CTRL
  | FR_STATUS
  | FR_DURABLE
  | FR_DIGEST
  | FR_READ
  | TW_CH_CTRL
  | TW_CH_PC
  | TW_CH_COUNT
  | TW_CH_STATUS
  | TW_TIMER
  | TW_DOORBELL
  | HB_CTRL
  | HB_STATUS
  | HB_RETIRE
  | HB_ERRLOG
  | PT_PORT
  | PT_PORT_STATUS
  | PT_FLEXE_GRP
  | PT_FLEXE_CAL
  | PT_MACSEC
  | PT_RXSC
  | PT_SA_WIN
  | PT_TIME_CTRL
  | PT_TIME_ADJ
  | PT_TIME_STATUS
  | PT_TS_FIFO
  | PT_PPS
  | PT_SYNCE
  | SY_SVC_CMD
  | SY_SVC_CTRL
  | SY_SVC_UNIT
  | LT_LIFE_HEAD
  | LT_SUPPLY
  | LT_CHAN
  | LT_RULE
  | LT_RULE_STAT
  | LT_THROTTLE
  | LT_EVLOG_HEAD
  | LT_POWER
  | LT_DOMAIN
  | LT_HOLDOVER
  | LT_WAKE
  | LT_BOOT
  | PC_EVENT
  | PC_FILTER
  | PC_VIEW
  | PC_BANK
  | PC_HR_CTRL
  | PC_HR_STATUS
  | TN_TWIN_REPORT
  deriving DecidableEq, Repr

/-- Access codes (R39). -/
inductive Access where
  | rw | rwo | ro | w1c | rc | wo | rsv
  deriving DecidableEq, Repr

/-- Clamp rules (R40): `keep`, every value is legal; `range lo hi`; `into lo hi dest`, values `lo` to `hi`
store `dest`; `special`, a rule that depends on more than the value. -/
inductive Clamp where
  | keep
  | range (lo hi : Nat)
  | into (lo hi dest : Nat)
  | special
  deriving DecidableEq, Repr

/-- Realm views (R34). -/
inductive View where
  | none | readOnly | perRealm
  deriving DecidableEq, Repr

/-- One row of a register table: lowest bit, width, access, reset value, clamp. -/
structure FieldDesc where
  lo : Nat
  len : Nat
  access : Access
  reset : Nat
  clamp : Clamp
  deriving DecidableEq, Repr

/-- A register family: offset of instance 0, stride and count of each index, width in bits, view, fields
from the lowest bit upward. -/
structure RegDesc where
  base : Nat
  dims : List (Nat × Nat)
  bits : Nat
  view : View
  fields : List FieldDesc
  deriving DecidableEq, Repr

/-- A field by its place: the register and the field's lowest bit and width. -/
structure FId where
  reg : Reg
  lo : Nat
  len : Nat
  deriving DecidableEq, Repr

end Sys2Proof.Machine
end

