-- ==== Sys2Proof/Machine/RegTable.lean ====
section
/-! DEFINITION. The manual's register tables as data: the place of each field by name, and each family's
row. Array fields take their index. -/

namespace Sys2Proof.Machine

def F.SY_REFUSED_ACCESS.COUNT : FId := ⟨.SY_REFUSED_ACCESS, 0, 64⟩
def F.SY_REALM_CTRL.ENABLE : FId := ⟨.SY_REALM_CTRL, 0, 1⟩
def F.SY_REALM_CTRL.PRIV : FId := ⟨.SY_REALM_CTRL, 1, 2⟩
def F.SY_REALM_CTRL.RINGS : FId := ⟨.SY_REALM_CTRL, 8, 5⟩
def F.SY_INT_ROUTE.VECTOR : FId := ⟨.SY_INT_ROUTE, 0, 12⟩
def F.SY_INT_ROUTE.REALM : FId := ⟨.SY_INT_ROUTE, 16, 6⟩
def F.SY_INT_ROUTE.EN : FId := ⟨.SY_INT_ROUTE, 31, 1⟩
def F.SY_ABI_SELECT.LEVEL : FId := ⟨.SY_ABI_SELECT, 0, 8⟩
def F.SY_ABI_SELECT.MIN : FId := ⟨.SY_ABI_SELECT, 8, 8⟩
def F.SY_ABI_SELECT.MAX : FId := ⟨.SY_ABI_SELECT, 16, 8⟩
def F.SY_ABI_SELECT.LOCKED : FId := ⟨.SY_ABI_SELECT, 24, 1⟩
def F.SY_HALLMARK.ACTIVE : FId := ⟨.SY_HALLMARK, 0, 4⟩
def F.SY_HALLMARK.PIN : FId := ⟨.SY_HALLMARK, 4, 4⟩
def F.SY_HALLMARK.NATIVE : FId := ⟨.SY_HALLMARK, 8, 4⟩
def F.SY_HALLMARK.PENDING : FId := ⟨.SY_HALLMARK, 12, 1⟩
def F.SY_IMAGE_STATUS.STATE : FId := ⟨.SY_IMAGE_STATUS, 0, 4⟩
def F.SY_IMAGE_STATUS.SECTION : FId := ⟨.SY_IMAGE_STATUS, 8, 8⟩
def F.SY_IMAGE_STATUS.SERVICE_READY : FId := ⟨.SY_IMAGE_STATUS, 16, 1⟩
def F.SY_RING_BASE.LOG2_ENTRIES : FId := ⟨.SY_RING_BASE, 0, 5⟩
def F.SY_RING_BASE.ENABLE : FId := ⟨.SY_RING_BASE, 8, 1⟩
def F.SY_RING_BASE.IRQ : FId := ⟨.SY_RING_BASE, 9, 1⟩
def F.SY_RING_BASE.BASE : FId := ⟨.SY_RING_BASE, 12, 52⟩
def F.SY_RING_PTRS.TAIL : FId := ⟨.SY_RING_PTRS, 0, 16⟩
def F.SY_RING_PTRS.HEAD : FId := ⟨.SY_RING_PTRS, 32, 16⟩
def F.SY_RING_COAL.COUNT : FId := ⟨.SY_RING_COAL, 0, 16⟩
def F.SY_RING_COAL.DELAY_US : FId := ⟨.SY_RING_COAL, 16, 16⟩
def F.SY_PUNT_BASE.LOG2_ENTRIES : FId := ⟨.SY_PUNT_BASE, 0, 5⟩
def F.SY_PUNT_BASE.ENABLE : FId := ⟨.SY_PUNT_BASE, 8, 1⟩
def F.SY_PUNT_BASE.IRQ : FId := ⟨.SY_PUNT_BASE, 9, 1⟩
def F.SY_PUNT_BASE.BUF_LOG2 : FId := ⟨.SY_PUNT_BASE, 12, 4⟩
def F.SY_PUNT_BASE.BASE : FId := ⟨.SY_PUNT_BASE, 16, 48⟩
def F.SY_PUNT_PTRS.TAIL : FId := ⟨.SY_PUNT_PTRS, 0, 16⟩
def F.SY_PUNT_PTRS.HEAD : FId := ⟨.SY_PUNT_PTRS, 32, 16⟩
def F.HN_ADM_CTRL.SHED_ON : FId := ⟨.HN_ADM_CTRL, 0, 13⟩
def F.HN_ADM_CTRL.SHED_OFF : FId := ⟨.HN_ADM_CTRL, 16, 13⟩
def F.HN_ADM_CTRL.SHEDDING : FId := ⟨.HN_ADM_CTRL, 29, 1⟩
def F.HN_ADM_SRC.DEFAULT : FId := ⟨.HN_ADM_SRC, 0, 2⟩
def F.HN_ADM_RULE.OFFSET : FId := ⟨.HN_ADM_RULE, 0, 8⟩
def F.HN_ADM_RULE.WIDTH : FId := ⟨.HN_ADM_RULE, 8, 3⟩
def F.HN_ADM_RULE.EN : FId := ⟨.HN_ADM_RULE, 11, 1⟩
def F.HN_ADM_RULE.CLASS : FId := ⟨.HN_ADM_RULE, 12, 2⟩
def F.HN_ADM_RULE.VALUE : FId := ⟨.HN_ADM_RULE, 16, 16⟩
def F.HN_ADM_RULE.MASK : FId := ⟨.HN_ADM_RULE, 32, 16⟩
def F.HN_DISP_CTRL.WATCHDOG_US : FId := ⟨.HN_DISP_CTRL, 0, 10⟩
def F.HN_DISP_CTRL.INFLIGHT_MAX : FId := ⟨.HN_DISP_CTRL, 12, 11⟩
def F.HN_DISP_CTRL.ACTIVE : FId := ⟨.HN_DISP_CTRL, 32, 17⟩
def F.HN_DISP_CTRL.SPARE : FId := ⟨.HN_DISP_CTRL, 56, 5⟩
def F.HN_FAULT_HEAD.NEXT : FId := ⟨.HN_FAULT_HEAD, 0, 10⟩
def F.HN_FAULT_HEAD.TOTAL : FId := ⟨.HN_FAULT_HEAD, 32, 32⟩
def F.SY_COAT_STATUS.ACTIVE_SLOT : FId := ⟨.SY_COAT_STATUS, 0, 1⟩
def F.SY_COAT_STATUS.STATE : FId := ⟨.SY_COAT_STATUS, 1, 2⟩
def F.SY_COAT_STATUS.OLD_INFLIGHT : FId := ⟨.SY_COAT_STATUS, 8, 24⟩
def F.SY_COAT_STATUS.GENERATION : FId := ⟨.SY_COAT_STATUS, 32, 32⟩
def F.LK_ASSOC_CFG.UPD_INTERVAL : FId := ⟨.LK_ASSOC_CFG, 0, 9⟩
def F.LK_GANG.GANG (q : Nat) : FId := ⟨.LK_GANG, 2 * q + 0, 2⟩
def F.LK_GANG.GANG_EFF (q : Nat) : FId := ⟨.LK_GANG, 2 * q + 16, 2⟩
def F.LK_BANK_MODE.EXACT : FId := ⟨.LK_BANK_MODE, 0, 32⟩
def F.LK_BANK_MODE.EXACT_EFF : FId := ⟨.LK_BANK_MODE, 32, 32⟩
def F.LK_BANK_OOS.OOS : FId := ⟨.LK_BANK_OOS, 0, 32⟩
def F.LK_TABLE_WIN.QUARTER : FId := ⟨.LK_TABLE_WIN, 0, 2⟩
def F.LK_VRF_MAP.GROUP : FId := ⟨.LK_VRF_MAP, 0, 4⟩
def F.LK_LPM_STATUS.UNITS_USED : FId := ⟨.LK_LPM_STATUS, 0, 24⟩
def F.LK_LPM_STATUS.BUSY : FId := ⟨.LK_LPM_STATUS, 32, 1⟩
def F.LK_LEARN_CTRL.EN : FId := ⟨.LK_LEARN_CTRL, 0, 1⟩
def F.LK_LEARN_CTRL.FILL : FId := ⟨.LK_LEARN_CTRL, 1, 13⟩
def F.LK_AGE_CTRL.TICK_MS : FId := ⟨.LK_AGE_CTRL, 0, 16⟩
def F.LK_AGE_CTRL.SWEEP_TICKS : FId := ⟨.LK_AGE_CTRL, 16, 16⟩
def F.LK_AGE_CTRL.NOW : FId := ⟨.LK_AGE_CTRL, 32, 16⟩
def F.LK_AGE_CTRL.EN : FId := ⟨.LK_AGE_CTRL, 48, 1⟩
def F.VT_POOL_GEOM.HOME : FId := ⟨.VT_POOL_GEOM, 0, 2⟩
def F.VT_POOL_GEOM.BASE : FId := ⟨.VT_POOL_GEOM, 4, 27⟩
def F.VT_POOL_GEOM.COUNT : FId := ⟨.VT_POOL_GEOM, 32, 27⟩
def F.VT_POOL_GEOM.EN : FId := ⟨.VT_POOL_GEOM, 63, 1⟩
def F.VT_POOL_POLICY.FALLBACK : FId := ⟨.VT_POOL_POLICY, 0, 4⟩
def F.VT_POOL_POLICY.FB_EN : FId := ⟨.VT_POOL_POLICY, 4, 1⟩
def F.VT_POOL_POLICY.SPILL : FId := ⟨.VT_POOL_POLICY, 8, 6⟩
def F.VT_POOL_POLICY.SPILL_EN : FId := ⟨.VT_POOL_POLICY, 14, 1⟩
def F.VT_POOL_POLICY.SPILL_LEVEL : FId := ⟨.VT_POOL_POLICY, 16, 24⟩
def F.VT_POOL_STAT.FREE : FId := ⟨.VT_POOL_STAT, 0, 27⟩
def F.VT_POOL_STAT.OUT : FId := ⟨.VT_POOL_STAT, 32, 27⟩
def F.VT_POOL_STAT.OWED : FId := ⟨.VT_POOL_STAT, 64, 27⟩
def F.VT_POOL_STAT.CLOSED : FId := ⟨.VT_POOL_STAT, 127, 1⟩
def F.VT_OWNER.HOME (s : Nat) : FId := ⟨.VT_OWNER, 4 * s + 0, 4⟩
def F.VT_OWNER.REALM : FId := ⟨.VT_OWNER, 16, 6⟩
def F.VT_OWNER.LIMIT : FId := ⟨.VT_OWNER, 32, 32⟩
def F.VT_OWNER.RSV0 : FId := ⟨.VT_OWNER, 64, 24⟩
def F.VT_OWNER.RSV1 : FId := ⟨.VT_OWNER, 88, 24⟩
def F.VT_OWNER.RSV2 : FId := ⟨.VT_OWNER, 128, 24⟩
def F.VT_OWNER.RSV3 : FId := ⟨.VT_OWNER, 152, 24⟩
def F.VT_OWNER.SRAM_CAP : FId := ⟨.VT_OWNER, 192, 32⟩
def F.VT_OWNER.LEAK_MS : FId := ⟨.VT_OWNER, 224, 16⟩
def F.VT_EGR_OWNER.OWNER : FId := ⟨.VT_EGR_OWNER, 0, 12⟩
def F.VT_OWNER_STAT.OUT : FId := ⟨.VT_OWNER_STAT, 0, 32⟩
def F.VT_OWNER_STAT.UNITS : FId := ⟨.VT_OWNER_STAT, 32, 32⟩
def F.VT_OWNER_STAT.SRAM_UNITS : FId := ⟨.VT_OWNER_STAT, 64, 32⟩
def F.VT_OWNER_STAT.RDRAWN (s : Nat) : FId := ⟨.VT_OWNER_STAT, 32 * s + 96, 24⟩
def F.VT_VOQ_AGE.LIMIT_US : FId := ⟨.VT_VOQ_AGE, 0, 22⟩
def F.VT_EQ_AGE.LIMIT_US : FId := ⟨.VT_EQ_AGE, 0, 22⟩
def F.VT_BUF_CTRL.AGE_SWEEP_US : FId := ⟨.VT_BUF_CTRL, 0, 16⟩
def F.VT_BUF_CTRL.HIST_BASE : FId := ⟨.VT_BUF_CTRL, 16, 4⟩
def F.VT_BUF_CTRL.NOW_US : FId := ⟨.VT_BUF_CTRL, 32, 32⟩
def F.VT_ASSAY_STATUS.PASSES : FId := ⟨.VT_ASSAY_STATUS, 0, 32⟩
def F.VT_ASSAY_STATUS.LEAK : FId := ⟨.VT_ASSAY_STATUS, 32, 1⟩
def F.VT_ASSAY.HIST (b : Nat) : FId := ⟨.VT_ASSAY, 32 * b + 0, 32⟩
def F.VT_ASSAY.OLDEST_US : FId := ⟨.VT_ASSAY, 256, 32⟩
def F.VT_ASSAY.OLDEST_HANDLE : FId := ⟨.VT_ASSAY, 320, 33⟩
def F.VT_ASSAY.LEAK : FId := ⟨.VT_ASSAY, 384, 1⟩
def F.VT_ASSAY.LEAK_NOW : FId := ⟨.VT_ASSAY, 385, 1⟩
def F.VT_ASSAY.PASS : FId := ⟨.VT_ASSAY, 416, 32⟩
def F.VT_MTR_WIN.INDEX : FId := ⟨.VT_MTR_WIN, 0, 20⟩
def F.VT_MTR_WIN.OP : FId := ⟨.VT_MTR_WIN, 24, 2⟩
def F.VT_MTR_WIN.BUSY : FId := ⟨.VT_MTR_WIN, 26, 1⟩
def F.VT_MTR_WIN.DATA0 : FId := ⟨.VT_MTR_WIN, 64, 64⟩
def F.VT_MTR_WIN.DATA1 : FId := ⟨.VT_MTR_WIN, 128, 64⟩
def F.VT_TPROF.G_MAX : FId := ⟨.VT_TPROF, 0, 21⟩
def F.VT_TPROF.Y_MAX : FId := ⟨.VT_TPROF, 21, 21⟩
def F.VT_TPROF.R_MAX : FId := ⟨.VT_TPROF, 42, 21⟩
def F.VT_QADM_CTRL.QSHED_ON : FId := ⟨.VT_QADM_CTRL, 0, 16⟩
def F.VT_QADM_CTRL.QSHED_OFF : FId := ⟨.VT_QADM_CTRL, 16, 16⟩
def F.VT_QADM_CTRL.SHEDDING : FId := ⟨.VT_QADM_CTRL, 32, 1⟩
def F.VT_QADM_STAT.BACKLOG : FId := ⟨.VT_QADM_STAT, 0, 48⟩
def F.VT_PORT.SH_EN : FId := ⟨.VT_PORT, 17, 1⟩
def F.VT_PORT.SHAPER : FId := ⟨.VT_PORT, 18, 18⟩
def F.VT_PORT.EN : FId := ⟨.VT_PORT, 63, 1⟩
def F.VT_PORT.DEPTH : FId := ⟨.VT_PORT, 64, 40⟩
def F.VT_PORT.POWER : FId := ⟨.VT_PORT, 104, 2⟩
def F.VT_NODE.QUANTUM : FId := ⟨.VT_NODE, 0, 17⟩
def F.VT_NODE.SH_EN : FId := ⟨.VT_NODE, 17, 1⟩
def F.VT_NODE.SHAPER : FId := ⟨.VT_NODE, 18, 18⟩
def F.VT_NODE.LEVEL : FId := ⟨.VT_NODE, 36, 2⟩
def F.VT_NODE.PRIO : FId := ⟨.VT_NODE, 44, 1⟩
def F.VT_NODE.PARENT_LEVEL : FId := ⟨.VT_NODE, 45, 2⟩
def F.VT_NODE.PARENT : FId := ⟨.VT_NODE, 48, 14⟩
def F.VT_NODE.EN : FId := ⟨.VT_NODE, 63, 1⟩
def F.VT_NODE.DEPTH : FId := ⟨.VT_NODE, 64, 40⟩
def F.VT_NODE.ATTACHED : FId := ⟨.VT_NODE, 104, 1⟩
def F.VT_EQ.QUANTUM : FId := ⟨.VT_EQ, 0, 17⟩
def F.VT_EQ.SH_EN : FId := ⟨.VT_EQ, 17, 1⟩
def F.VT_EQ.SHAPER : FId := ⟨.VT_EQ, 18, 18⟩
def F.VT_EQ.TPROF : FId := ⟨.VT_EQ, 36, 8⟩
def F.VT_EQ.PRIO : FId := ⟨.VT_EQ, 44, 1⟩
def F.VT_EQ.PARENT_LEVEL : FId := ⟨.VT_EQ, 45, 2⟩
def F.VT_EQ.PARENT : FId := ⟨.VT_EQ, 48, 14⟩
def F.VT_EQ.EN : FId := ⟨.VT_EQ, 63, 1⟩
def F.VT_EQ.DEPTH : FId := ⟨.VT_EQ, 64, 40⟩
def F.VT_EQ.ATTACHED : FId := ⟨.VT_EQ, 104, 1⟩
def F.VT_DEST.QUANTUM : FId := ⟨.VT_DEST, 0, 17⟩
def F.VT_DEST.SH_EN : FId := ⟨.VT_DEST, 17, 1⟩
def F.VT_DEST.SHAPER : FId := ⟨.VT_DEST, 18, 18⟩
def F.VT_VOQ.QUANTUM : FId := ⟨.VT_VOQ, 0, 17⟩
def F.VT_VOQ.SH_EN : FId := ⟨.VT_VOQ, 17, 1⟩
def F.VT_VOQ.SHAPER : FId := ⟨.VT_VOQ, 18, 18⟩
def F.VT_VOQ.TPROF : FId := ⟨.VT_VOQ, 36, 8⟩
def F.VT_VOQ.PRIO : FId := ⟨.VT_VOQ, 44, 1⟩
def F.VT_VOQ.DEPTH : FId := ⟨.VT_VOQ, 64, 40⟩
def F.VT_SHAPER.RATE : FId := ⟨.VT_SHAPER, 0, 27⟩
def F.VT_SHAPER.BURST : FId := ⟨.VT_SHAPER, 27, 24⟩
def F.VT_SHAPER.ADJ : FId := ⟨.VT_SHAPER, 51, 7⟩
def F.VT_DRAIN_CTRL.DRAIN_US : FId := ⟨.VT_DRAIN_CTRL, 0, 20⟩
def F.FB_MODE.MODE : FId := ⟨.FB_MODE, 0, 2⟩
def F.FB_MODE.MODE_EFF : FId := ⟨.FB_MODE, 2, 2⟩
def F.FB_MODE.PENDING : FId := ⟨.FB_MODE, 4, 1⟩
def F.FB_MODE.MODULE_ID : FId := ⟨.FB_MODE, 8, 6⟩
def F.FB_MODE.ID_EFF : FId := ⟨.FB_MODE, 16, 6⟩
def F.FB_MODE.GROUP_ID : FId := ⟨.FB_MODE, 24, 6⟩
def F.FB_MODE.GROUP_EN : FId := ⟨.FB_MODE, 30, 1⟩
def F.FB_LINK.EN : FId := ⟨.FB_LINK, 0, 1⟩
def F.FB_LINK.RATE : FId := ⟨.FB_LINK, 1, 1⟩
def F.FB_LINK.LEVELS : FId := ⟨.FB_LINK, 2, 3⟩
def F.FB_LINK.STATE : FId := ⟨.FB_LINK, 8, 2⟩
def F.FB_LINK.LEVEL_EFF : FId := ⟨.FB_LINK, 10, 2⟩
def F.FB_LINK.PEER : FId := ⟨.FB_LINK, 16, 6⟩
def F.FB_FC_CTRL.FC_STOP : FId := ⟨.FB_FC_CTRL, 0, 16⟩
def F.FB_FC_CTRL.FC_GO : FId := ⟨.FB_FC_CTRL, 16, 16⟩
def F.FB_REORDER_CTRL.WINDOW_US : FId := ⟨.FB_REORDER_CTRL, 0, 7⟩
def F.FB_EXPRESS.EXP_CELLS : FId := ⟨.FB_EXPRESS, 0, 11⟩
def F.FB_EXPRESS.GRANT_TIMEOUT_US : FId := ⟨.FB_EXPRESS, 16, 10⟩
def F.FB_REPL_CTRL.RETRY_US : FId := ⟨.FB_REPL_CTRL, 0, 14⟩
def F.FB_GROUP.MODULES : FId := ⟨.FB_GROUP, 0, 64⟩
def F.FB_GROUP.FIRST : FId := ⟨.FB_GROUP, 64, 16⟩
def F.FB_GROUP.COUNT : FId := ⟨.FB_GROUP, 80, 11⟩
def F.FB_REPL.LDEST : FId := ⟨.FB_REPL, 0, 8⟩
def F.FB_REPL.EN : FId := ⟨.FB_REPL, 8, 1⟩
def F.FB_REPL.EQ : FId := ⟨.FB_REPL, 16, 15⟩
def F.FB_MSESS.DEST : FId := ⟨.FB_MSESS, 0, 16⟩
def F.FB_MSESS.TC : FId := ⟨.FB_MSESS, 16, 3⟩
def F.FB_MSESS.EN : FId := ⟨.FB_MSESS, 19, 1⟩
def F.FB_MSESS.EQ : FId := ⟨.FB_MSESS, 20, 15⟩
def F.FB_MSESS.TRUNC : FId := ⟨.FB_MSESS, 36, 9⟩
def F.FB_MSESS.SAMPLE : FId := ⟨.FB_MSESS, 48, 16⟩
def F.FB_MSRC.SESSION : FId := ⟨.FB_MSRC, 0, 10⟩
def F.FB_MSRC.EN : FId := ⟨.FB_MSRC, 10, 1⟩
def F.FB_MDST.SESSION : FId := ⟨.FB_MDST, 0, 10⟩
def F.FB_MDST.EN : FId := ⟨.FB_MDST, 10, 1⟩
def F.TN_CTRL.EN : FId := ⟨.TN_CTRL, 0, 1⟩
def F.TN_CTRL.AUTO_TAKE : FId := ⟨.TN_CTRL, 1, 1⟩
def F.TN_CTRL.HB_MISS : FId := ⟨.TN_CTRL, 2, 10⟩
def F.TN_CTRL.GEN_SKIP : FId := ⟨.TN_CTRL, 12, 10⟩
def F.TN_CTRL.CMD : FId := ⟨.TN_CTRL, 22, 2⟩
def F.TN_CTRL.SELFTEST_EN : FId := ⟨.TN_CTRL, 24, 1⟩
def F.TN_CTRL.FORM_MS : FId := ⟨.TN_CTRL, 25, 16⟩
def F.TN_STATUS.STATE : FId := ⟨.TN_STATUS, 0, 3⟩
def F.TN_STATUS.ROLE : FId := ⟨.TN_STATUS, 3, 1⟩
def F.TN_STATUS.SUSPECT : FId := ⟨.TN_STATUS, 4, 1⟩
def F.TN_STATUS.LEVEL_EFF : FId := ⟨.TN_STATUS, 5, 2⟩
def F.TN_STATUS.LINK : FId := ⟨.TN_STATUS, 7, 1⟩
def F.TN_STATUS.TWIN_ID : FId := ⟨.TN_STATUS, 8, 6⟩
def F.TN_STATUS.EPOCH : FId := ⟨.TN_STATUS, 32, 32⟩
def F.TN_STREAM_WIN.INDEX : FId := ⟨.TN_STREAM_WIN, 0, 16⟩
def F.TN_STREAM_WIN.OP : FId := ⟨.TN_STREAM_WIN, 24, 2⟩
def F.TN_STREAM_WIN.BUSY : FId := ⟨.TN_STREAM_WIN, 26, 1⟩
def F.TN_STREAM_WIN.DATA0 : FId := ⟨.TN_STREAM_WIN, 64, 64⟩
def F.TN_STREAM_WIN.DATA1 : FId := ⟨.TN_STREAM_WIN, 128, 64⟩
def F.TN_DIV.CMP_US : FId := ⟨.TN_DIV, 0, 16⟩
def F.TN_DIV.DIV_N : FId := ⟨.TN_DIV, 16, 9⟩
def F.TN_DIV.DIV_T_MS : FId := ⟨.TN_DIV, 32, 16⟩
def F.FR_TARGET.KIND : FId := ⟨.FR_TARGET, 0, 2⟩
def F.FR_TARGET.EN : FId := ⟨.FR_TARGET, 2, 1⟩
def F.FR_TARGET.STATE : FId := ⟨.FR_TARGET, 8, 3⟩
def F.FR_TARGET.ROOT : FId := ⟨.FR_TARGET, 16, 1⟩
def F.FR_TARGET.LDEST : FId := ⟨.FR_TARGET, 24, 8⟩
def F.FR_TARGET.NSID : FId := ⟨.FR_TARGET, 32, 32⟩
def F.FR_TARGET.FIRST_SLOT : FId := ⟨.FR_TARGET, 64, 30⟩
def F.FR_TARGET.SLOTS : FId := ⟨.FR_TARGET, 96, 31⟩
def F.FR_TARGET.BASE : FId := ⟨.FR_TARGET, 128, 64⟩
def F.FR_TARGET.RKEY : FId := ⟨.FR_TARGET, 192, 32⟩
def F.FR_TARGET.EQ : FId := ⟨.FR_TARGET, 224, 15⟩
def F.FR_TARGET.ENDURANCE_TB : FId := ⟨.FR_TARGET, 256, 32⟩
def F.FR_TARGET.W : FId := ⟨.FR_TARGET, 288, 10⟩
def F.FR_TARGET.BYTES : FId := ⟨.FR_TARGET, 320, 64⟩
def F.FR_TARGET.NEXT : FId := ⟨.FR_TARGET, 384, 30⟩
def F.FR_TEMPLATE.HDR : FId := ⟨.FR_TEMPLATE, 0, 1016⟩
def F.FR_TEMPLATE.HLEN : FId := ⟨.FR_TEMPLATE, 1016, 8⟩
def F.FR_CTRL.EN : FId := ⟨.FR_CTRL, 0, 1⟩
def F.FR_CTRL.CMD : FId := ⟨.FR_CTRL, 4, 2⟩
def F.FR_CTRL.SEAL_MS : FId := ⟨.FR_CTRL, 16, 16⟩
def F.FR_CTRL.HOLDUP_US : FId := ⟨.FR_CTRL, 32, 16⟩
def F.FR_CTRL.RETIRE_W : FId := ⟨.FR_CTRL, 48, 10⟩
def F.FR_STATUS.STATE : FId := ⟨.FR_STATUS, 0, 3⟩
def F.FR_STATUS.DIR_READY : FId := ⟨.FR_STATUS, 3, 1⟩
def F.FR_STATUS.STAGE_MIB : FId := ⟨.FR_STATUS, 16, 12⟩
def F.FR_STATUS.BREAKS : FId := ⟨.FR_STATUS, 32, 32⟩
def F.FR_DURABLE.SEQ : FId := ⟨.FR_DURABLE, 0, 64⟩
def F.FR_DIGEST.DIGEST : FId := ⟨.FR_DIGEST, 0, 256⟩
def F.FR_READ.OP : FId := ⟨.FR_READ, 0, 2⟩
def F.FR_READ.BUSY : FId := ⟨.FR_READ, 2, 1⟩
def F.FR_READ.RESULT : FId := ⟨.FR_READ, 4, 4⟩
def F.FR_READ.SEQ_FIRST : FId := ⟨.FR_READ, 64, 64⟩
def F.FR_READ.SEQ_LAST : FId := ⟨.FR_READ, 128, 64⟩
def F.FR_READ.HOST_ADDR : FId := ⟨.FR_READ, 192, 64⟩
def F.FR_READ.FAIL_SEQ : FId := ⟨.FR_READ, 256, 64⟩
def F.TW_CH_CTRL.CMD : FId := ⟨.TW_CH_CTRL, 0, 2⟩
def F.TW_CH_CTRL.KILL : FId := ⟨.TW_CH_CTRL, 2, 1⟩
def F.TW_CH_CTRL.REALM : FId := ⟨.TW_CH_CTRL, 8, 6⟩
def F.TW_CH_CTRL.START_EV : FId := ⟨.TW_CH_CTRL, 16, 2⟩
def F.TW_CH_CTRL.START_SRC : FId := ⟨.TW_CH_CTRL, 24, 7⟩
def F.TW_CH_CTRL.WEIGHT : FId := ⟨.TW_CH_CTRL, 32, 5⟩
def F.TW_CH_PC.PC : FId := ⟨.TW_CH_PC, 3, 61⟩
def F.TW_CH_COUNT.RELOAD : FId := ⟨.TW_CH_COUNT, 0, 32⟩
def F.TW_CH_COUNT.REMAIN : FId := ⟨.TW_CH_COUNT, 32, 32⟩
def F.TW_CH_STATUS.STATE : FId := ⟨.TW_CH_STATUS, 0, 3⟩
def F.TW_CH_STATUS.DB_PEND : FId := ⟨.TW_CH_STATUS, 3, 1⟩
def F.TW_CH_STATUS.FAULT : FId := ⟨.TW_CH_STATUS, 4, 4⟩
def F.TW_CH_STATUS.INFLIGHT : FId := ⟨.TW_CH_STATUS, 8, 5⟩
def F.TW_CH_STATUS.LOOP_I : FId := ⟨.TW_CH_STATUS, 32, 32⟩
def F.TW_TIMER.PERIOD_US : FId := ⟨.TW_TIMER, 0, 24⟩
def F.TW_TIMER.EN : FId := ⟨.TW_TIMER, 24, 1⟩
def F.TW_TIMER.TICKS : FId := ⟨.TW_TIMER, 32, 32⟩
def F.TW_DOORBELL.CHANNEL : FId := ⟨.TW_DOORBELL, 0, 7⟩
def F.TW_DOORBELL.OP : FId := ⟨.TW_DOORBELL, 8, 2⟩
def F.HB_CTRL.IDLE_SR_EN : FId := ⟨.HB_CTRL, 0, 1⟩
def F.HB_CTRL.IDLE_US : FId := ⟨.HB_CTRL, 1, 15⟩
def F.HB_CTRL.SCRUB_H : FId := ⟨.HB_CTRL, 16, 5⟩
def F.HB_CTRL.CE_ROW_LIMIT : FId := ⟨.HB_CTRL, 24, 4⟩
def F.HB_CTRL.AUTO_REPAIR : FId := ⟨.HB_CTRL, 28, 1⟩
def F.HB_STATUS.STATE : FId := ⟨.HB_STATUS, 0, 3⟩
def F.HB_STATUS.LAST_FAST : FId := ⟨.HB_STATUS, 3, 1⟩
def F.HB_STATUS.TEMP_C : FId := ⟨.HB_STATUS, 8, 8⟩
def F.HB_STATUS.RETIRED : FId := ⟨.HB_STATUS, 16, 16⟩
def F.HB_STATUS.REPAIRS : FId := ⟨.HB_STATUS, 32, 16⟩
def F.HB_STATUS.ERR_NEXT : FId := ⟨.HB_STATUS, 48, 6⟩
def F.HB_RETIRE.CHANNEL : FId := ⟨.HB_RETIRE, 0, 4⟩
def F.HB_RETIRE.YIELD : FId := ⟨.HB_RETIRE, 4, 4⟩
def F.HB_RETIRE.GO : FId := ⟨.HB_RETIRE, 8, 1⟩
def F.HB_RETIRE.BUSY : FId := ⟨.HB_RETIRE, 9, 1⟩
def F.HB_RETIRE.PROGRESS : FId := ⟨.HB_RETIRE, 16, 23⟩
def F.HB_ERRLOG.ADDR : FId := ⟨.HB_ERRLOG, 0, 35⟩
def F.HB_ERRLOG.UE : FId := ⟨.HB_ERRLOG, 35, 1⟩
def F.HB_ERRLOG.PORT : FId := ⟨.HB_ERRLOG, 36, 3⟩
def F.HB_ERRLOG.TIME : FId := ⟨.HB_ERRLOG, 64, 64⟩
def F.PT_PORT.EN : FId := ⟨.PT_PORT, 0, 1⟩
def F.PT_PORT.MODE : FId := ⟨.PT_PORT, 1, 4⟩
def F.PT_PORT.FEC : FId := ⟨.PT_PORT, 5, 2⟩
def F.PT_PORT.AN_LT : FId := ⟨.PT_PORT, 7, 1⟩
def F.PT_PORT.TX_INV : FId := ⟨.PT_PORT, 8, 8⟩
def F.PT_PORT.RX_INV : FId := ⟨.PT_PORT, 16, 8⟩
def F.PT_PORT.HOLDOVER : FId := ⟨.PT_PORT, 24, 1⟩
def F.PT_PORT.RX_ADJ : FId := ⟨.PT_PORT, 32, 16⟩
def F.PT_PORT.TX_ADJ : FId := ⟨.PT_PORT, 48, 16⟩
def F.PT_PORT_STATUS.IN_SERVICE : FId := ⟨.PT_PORT_STATUS, 0, 1⟩
def F.PT_PORT_STATUS.LINK : FId := ⟨.PT_PORT_STATUS, 1, 1⟩
def F.PT_PORT_STATUS.HI_SER : FId := ⟨.PT_PORT_STATUS, 2, 1⟩
def F.PT_PORT_STATUS.ADAPTING : FId := ⟨.PT_PORT_STATUS, 3, 1⟩
def F.PT_PORT_STATUS.LOCKED : FId := ⟨.PT_PORT_STATUS, 8, 8⟩
def F.PT_FLEXE_GRP.PHYS : FId := ⟨.PT_FLEXE_GRP, 0, 32⟩
def F.PT_FLEXE_GRP.EN : FId := ⟨.PT_FLEXE_GRP, 32, 1⟩
def F.PT_FLEXE_GRP.CAL_USE : FId := ⟨.PT_FLEXE_GRP, 33, 1⟩
def F.PT_FLEXE_GRP.SWITCH : FId := ⟨.PT_FLEXE_GRP, 34, 1⟩
def F.PT_FLEXE_GRP.SW_BUSY : FId := ⟨.PT_FLEXE_GRP, 35, 1⟩
def F.PT_FLEXE_GRP.GROUP_NUM : FId := ⟨.PT_FLEXE_GRP, 64, 20⟩
def F.PT_FLEXE_CAL.CLIENT : FId := ⟨.PT_FLEXE_CAL, 0, 8⟩
def F.PT_MACSEC.TX_EN : FId := ⟨.PT_MACSEC, 0, 1⟩
def F.PT_MACSEC.CONF : FId := ⟨.PT_MACSEC, 1, 1⟩
def F.PT_MACSEC.OFFSET : FId := ⟨.PT_MACSEC, 2, 2⟩
def F.PT_MACSEC.XPN : FId := ⟨.PT_MACSEC, 4, 1⟩
def F.PT_MACSEC.INCLUDE_SCI : FId := ⟨.PT_MACSEC, 5, 1⟩
def F.PT_MACSEC.TX_AN : FId := ⟨.PT_MACSEC, 6, 2⟩
def F.PT_MACSEC.VALIDATE : FId := ⟨.PT_MACSEC, 8, 2⟩
def F.PT_MACSEC.REPLAY_EN : FId := ⟨.PT_MACSEC, 10, 1⟩
def F.PT_MACSEC.REPLAY_WIN : FId := ⟨.PT_MACSEC, 12, 32⟩
def F.PT_MACSEC.BYPASS_ET : FId := ⟨.PT_MACSEC, 44, 16⟩
def F.PT_MACSEC.BYPASS_EN : FId := ⟨.PT_MACSEC, 60, 1⟩
def F.PT_MACSEC.TX_SCI : FId := ⟨.PT_MACSEC, 64, 64⟩
def F.PT_RXSC.EN : FId := ⟨.PT_RXSC, 0, 1⟩
def F.PT_RXSC.SCI : FId := ⟨.PT_RXSC, 64, 64⟩
def F.PT_SA_WIN.INDEX : FId := ⟨.PT_SA_WIN, 0, 11⟩
def F.PT_SA_WIN.OP : FId := ⟨.PT_SA_WIN, 24, 2⟩
def F.PT_SA_WIN.BUSY : FId := ⟨.PT_SA_WIN, 26, 1⟩
def F.PT_SA_WIN.DATA : FId := ⟨.PT_SA_WIN, 64, 512⟩
def F.PT_TIME_CTRL.FREQ_SRC : FId := ⟨.PT_TIME_CTRL, 0, 2⟩
def F.PT_TIME_CTRL.FREQ_PORT : FId := ⟨.PT_TIME_CTRL, 2, 5⟩
def F.PT_TIME_CTRL.PPS_DISC : FId := ⟨.PT_TIME_CTRL, 7, 1⟩
def F.PT_TIME_CTRL.VALID : FId := ⟨.PT_TIME_CTRL, 8, 1⟩
def F.PT_TIME_CTRL.FREQ_ADJ : FId := ⟨.PT_TIME_CTRL, 32, 32⟩
def F.PT_TIME_ADJ.OP : FId := ⟨.PT_TIME_ADJ, 0, 2⟩
def F.PT_TIME_ADJ.VALUE : FId := ⟨.PT_TIME_ADJ, 64, 64⟩
def F.PT_TIME_STATUS.NOW : FId := ⟨.PT_TIME_STATUS, 0, 63⟩
def F.PT_TIME_STATUS.INVALID : FId := ⟨.PT_TIME_STATUS, 63, 1⟩
def F.PT_TIME_STATUS.PPS_IN_TIME : FId := ⟨.PT_TIME_STATUS, 64, 64⟩
def F.PT_TS_FIFO.VALID : FId := ⟨.PT_TS_FIFO, 0, 1⟩
def F.PT_TS_FIFO.TAG : FId := ⟨.PT_TS_FIFO, 16, 16⟩
def F.PT_TS_FIFO.TIME : FId := ⟨.PT_TS_FIFO, 64, 64⟩
def F.PT_PPS.OUT_EN : FId := ⟨.PT_PPS, 0, 1⟩
def F.PT_PPS.OUT_FREE : FId := ⟨.PT_PPS, 1, 1⟩
def F.PT_PPS.WIDTH_MS : FId := ⟨.PT_PPS, 16, 10⟩
def F.PT_PPS.IN_EN : FId := ⟨.PT_PPS, 32, 1⟩
def F.PT_PPS.IN_EDGE : FId := ⟨.PT_PPS, 33, 1⟩
def F.PT_PPS.IN_ADJ : FId := ⟨.PT_PPS, 48, 16⟩
def F.PT_SYNCE.FREQ : FId := ⟨.PT_SYNCE, 0, 2⟩
def F.PT_SYNCE.PORT : FId := ⟨.PT_SYNCE, 2, 5⟩
def F.PT_SYNCE.SQUELCHED : FId := ⟨.PT_SYNCE, 7, 1⟩
def F.SY_SVC_CMD.UNIT : FId := ⟨.SY_SVC_CMD, 0, 8⟩
def F.SY_SVC_CMD.OP : FId := ⟨.SY_SVC_CMD, 8, 2⟩
def F.SY_SVC_CMD.NOSUB : FId := ⟨.SY_SVC_CMD, 10, 1⟩
def F.SY_SVC_CMD.BUSY : FId := ⟨.SY_SVC_CMD, 11, 1⟩
def F.SY_SVC_CMD.RESULT : FId := ⟨.SY_SVC_CMD, 12, 4⟩
def F.SY_SVC_CTRL.AUTO_SPARE : FId := ⟨.SY_SVC_CTRL, 0, 1⟩
def F.SY_SVC_CTRL.PARITY_LIMIT : FId := ⟨.SY_SVC_CTRL, 8, 8⟩
def F.SY_SVC_CTRL.SHADOW_MS : FId := ⟨.SY_SVC_CTRL, 16, 16⟩
def F.SY_SVC_CTRL.SHADOW_SAMPLE : FId := ⟨.SY_SVC_CTRL, 32, 16⟩
def F.SY_SVC_CTRL.SHADOW_FAIL : FId := ⟨.SY_SVC_CTRL, 48, 8⟩
def F.SY_SVC_UNIT.STATE : FId := ⟨.SY_SVC_UNIT, 0, 3⟩
def F.SY_SVC_UNIT.STANDS_FOR : FId := ⟨.SY_SVC_UNIT, 8, 6⟩
def F.SY_SVC_UNIT.EVENTS : FId := ⟨.SY_SVC_UNIT, 16, 16⟩
def F.SY_SVC_UNIT.MISMATCH : FId := ⟨.SY_SVC_UNIT, 32, 16⟩
def F.LT_LIFE_HEAD.HEAD : FId := ⟨.LT_LIFE_HEAD, 0, 8⟩
def F.LT_LIFE_HEAD.TOTAL : FId := ⟨.LT_LIFE_HEAD, 8, 24⟩
def F.LT_SUPPLY.VIN_MV : FId := ⟨.LT_SUPPLY, 0, 16⟩
def F.LT_SUPPLY.VAUX_MV : FId := ⟨.LT_SUPPLY, 16, 16⟩
def F.LT_SUPPLY.VIN_VALID : FId := ⟨.LT_SUPPLY, 32, 1⟩
def F.LT_SUPPLY.SURGE : FId := ⟨.LT_SUPPLY, 33, 1⟩
def F.LT_SUPPLY.LOW : FId := ⟨.LT_SUPPLY, 34, 1⟩
def F.LT_SUPPLY.XTAL_FAIL : FId := ⟨.LT_SUPPLY, 35, 1⟩
def F.LT_CHAN.SOURCE : FId := ⟨.LT_CHAN, 0, 6⟩
def F.LT_CHAN.RATE : FId := ⟨.LT_CHAN, 8, 2⟩
def F.LT_CHAN.LAST : FId := ⟨.LT_CHAN, 32, 32⟩
def F.LT_RULE.EN : FId := ⟨.LT_RULE, 0, 1⟩
def F.LT_RULE.CHAN : FId := ⟨.LT_RULE, 1, 5⟩
def F.LT_RULE.FILTER : FId := ⟨.LT_RULE, 6, 2⟩
def F.LT_RULE.BELOW : FId := ⟨.LT_RULE, 8, 1⟩
def F.LT_RULE.N : FId := ⟨.LT_RULE, 9, 11⟩
def F.LT_RULE.ACTION : FId := ⟨.LT_RULE, 20, 4⟩
def F.LT_RULE.PARAM : FId := ⟨.LT_RULE, 24, 8⟩
def F.LT_RULE.THRESH : FId := ⟨.LT_RULE, 32, 32⟩
def F.LT_RULE.HYST : FId := ⟨.LT_RULE, 64, 32⟩
def F.LT_RULE.HOLD : FId := ⟨.LT_RULE, 96, 32⟩
def F.LT_RULE_STAT.ASSERTED : FId := ⟨.LT_RULE_STAT, 0, 64⟩
def F.LT_THROTTLE.LEVEL (t : Nat) : FId := ⟨.LT_THROTTLE, 4 * t + 0, 4⟩
def F.LT_EVLOG_HEAD.HEAD : FId := ⟨.LT_EVLOG_HEAD, 0, 9⟩
def F.LT_EVLOG_HEAD.TOTAL : FId := ⟨.LT_EVLOG_HEAD, 9, 23⟩
def F.LT_POWER.REQ : FId := ⟨.LT_POWER, 0, 2⟩
def F.LT_POWER.STATE : FId := ⟨.LT_POWER, 4, 3⟩
def F.LT_POWER.BUSY : FId := ⟨.LT_POWER, 7, 1⟩
def F.LT_POWER.CAP : FId := ⟨.LT_POWER, 8, 2⟩
def F.LT_POWER.CAP_RULE : FId := ⟨.LT_POWER, 16, 8⟩
def F.LT_DOMAIN.SLICE_OFF : FId := ⟨.LT_DOMAIN, 0, 17⟩
def F.LT_DOMAIN.PORT_OFF : FId := ⟨.LT_DOMAIN, 32, 32⟩
def F.LT_HOLDOVER.TC_MASK : FId := ⟨.LT_HOLDOVER, 0, 8⟩
def F.LT_HOLDOVER.FLUSH_MS : FId := ⟨.LT_HOLDOVER, 16, 10⟩
def F.LT_WAKE.CAUSE : FId := ⟨.LT_WAKE, 0, 9⟩
def F.LT_WAKE.PENDING : FId := ⟨.LT_WAKE, 9, 1⟩
def F.LT_WAKE.PIN : FId := ⟨.LT_WAKE, 10, 1⟩
def F.LT_WAKE.RESUMED : FId := ⟨.LT_WAKE, 11, 1⟩
def F.LT_WAKE.MERGED : FId := ⟨.LT_WAKE, 16, 8⟩
def F.LT_BOOT.COAT : FId := ⟨.LT_BOOT, 0, 2⟩
def F.LT_BOOT.FLASH0_OK : FId := ⟨.LT_BOOT, 2, 1⟩
def F.LT_BOOT.FLASH1_OK : FId := ⟨.LT_BOOT, 3, 1⟩
def F.LT_BOOT.FALLBACK : FId := ⟨.LT_BOOT, 4, 1⟩
def F.LT_BOOT.REASON : FId := ⟨.LT_BOOT, 8, 8⟩
def F.LT_BOOT.LOAD_MS : FId := ⟨.LT_BOOT, 16, 16⟩
def F.PC_EVENT.COUNT : FId := ⟨.PC_EVENT, 0, 64⟩
def F.PC_FILTER.PRIV : FId := ⟨.PC_FILTER, 0, 3⟩
def F.PC_FILTER.MASTER : FId := ⟨.PC_FILTER, 4, 3⟩
def F.PC_FILTER.MASTER_ID : FId := ⟨.PC_FILTER, 8, 7⟩
def F.PC_FILTER.TC : FId := ⟨.PC_FILTER, 16, 8⟩
def F.PC_FILTER.ADDR_LO : FId := ⟨.PC_FILTER, 64, 64⟩
def F.PC_FILTER.ADDR_HI : FId := ⟨.PC_FILTER, 128, 64⟩
def F.PC_VIEW.REALM : FId := ⟨.PC_VIEW, 0, 6⟩
def F.PC_BANK.COUNT : FId := ⟨.PC_BANK, 0, 64⟩
def F.PC_HR_CTRL.EN : FId := ⟨.PC_HR_CTRL, 0, 1⟩
def F.PC_HR_CTRL.LOG2_SLOTS : FId := ⟨.PC_HR_CTRL, 1, 3⟩
def F.PC_HR_CTRL.BASE : FId := ⟨.PC_HR_CTRL, 8, 56⟩
def F.PC_HR_STATUS.SEQ : FId := ⟨.PC_HR_STATUS, 0, 64⟩
def F.TN_TWIN_REPORT.REPORT : FId := ⟨.TN_TWIN_REPORT, 0, 2048⟩

/-- The row of each register family. -/
def regDesc : Reg → RegDesc
  | .SY_REFUSED_ACCESS => ⟨0x00000030, [], 64, .none, [  -- R35
      ⟨0, 64, .ro, 0, .keep⟩]⟩
  | .SY_REALM_CTRL => ⟨0x00001000, [(0x8, 64)], 32, .none, [  -- R37
      ⟨0, 1, .rwo, 0, .special⟩, ⟨1, 2, .rwo, 0, .special⟩, ⟨3, 5, .rsv, 0, .keep⟩,
      ⟨8, 5, .rwo, 0, .range 0 16⟩, ⟨13, 19, .rsv, 0, .keep⟩]⟩
  | .SY_INT_ROUTE => ⟨0x00003000, [(0x4, 1024)], 32, .none, [  -- R46
      ⟨0, 12, .rwo, 0, .special⟩, ⟨12, 4, .rsv, 0, .keep⟩, ⟨16, 6, .rwo, 0, .keep⟩,
      ⟨22, 9, .rsv, 0, .keep⟩, ⟨31, 1, .rwo, 0, .special⟩]⟩
  | .SY_ABI_SELECT => ⟨0x00000010, [], 32, .perRealm, [  -- R48
      ⟨0, 8, .rw, 0, .special⟩, ⟨8, 8, .ro, 1, .keep⟩, ⟨16, 8, .ro, 0, .keep⟩, ⟨24, 1, .ro, 0, .keep⟩,
      ⟨25, 7, .rsv, 0, .keep⟩]⟩
  | .SY_HALLMARK => ⟨0x00000020, [], 32, .readOnly, [  -- R49
      ⟨0, 4, .ro, 0, .keep⟩, ⟨4, 4, .rwo, 0, .range 1 3⟩, ⟨8, 4, .ro, 3, .keep⟩,
      ⟨12, 1, .ro, 0, .keep⟩, ⟨13, 19, .rsv, 0, .keep⟩]⟩
  | .SY_IMAGE_STATUS => ⟨0x00000100, [], 32, .readOnly, [  -- R53
      ⟨0, 4, .ro, 0, .keep⟩, ⟨4, 4, .rsv, 0, .keep⟩, ⟨8, 8, .ro, 0, .keep⟩, ⟨16, 1, .ro, 0, .keep⟩,
      ⟨17, 15, .rsv, 0, .keep⟩]⟩
  | .SY_RING_BASE => ⟨0x00002000, [(0x40, 16)], 64, .perRealm, [  -- R56
      ⟨0, 5, .rw, 4, .range 4 16⟩, ⟨5, 3, .rsv, 0, .keep⟩, ⟨8, 1, .rw, 0, .special⟩,
      ⟨9, 1, .rw, 1, .keep⟩, ⟨10, 2, .rsv, 0, .keep⟩, ⟨12, 52, .rw, 0, .keep⟩]⟩
  | .SY_RING_PTRS => ⟨0x00002008, [(0x40, 16)], 64, .perRealm, [  -- R56
      ⟨0, 16, .rw, 0, .special⟩, ⟨16, 16, .rsv, 0, .keep⟩, ⟨32, 16, .ro, 0, .keep⟩,
      ⟨48, 16, .rsv, 0, .keep⟩]⟩
  | .SY_RING_COAL => ⟨0x00002010, [(0x40, 16)], 32, .perRealm, [  -- R62
      ⟨0, 16, .rw, 1, .range 1 65535⟩, ⟨16, 16, .rw, 0, .keep⟩]⟩
  | .SY_PUNT_BASE => ⟨0x00002800, [], 64, .perRealm, [  -- R64
      ⟨0, 5, .rw, 4, .range 4 16⟩, ⟨5, 3, .rsv, 0, .keep⟩, ⟨8, 1, .rw, 0, .keep⟩,
      ⟨9, 1, .rw, 1, .keep⟩, ⟨10, 2, .rsv, 0, .keep⟩, ⟨12, 4, .rw, 11, .range 11 15⟩,
      ⟨16, 48, .rw, 0, .keep⟩]⟩
  | .SY_PUNT_PTRS => ⟨0x00002808, [], 64, .perRealm, [  -- R64
      ⟨0, 16, .rw, 0, .special⟩, ⟨16, 16, .rsv, 0, .keep⟩, ⟨32, 16, .ro, 0, .keep⟩,
      ⟨48, 16, .rsv, 0, .keep⟩]⟩
  | .HN_ADM_CTRL => ⟨0x01C00000, [], 32, .none, [  -- R74
      ⟨0, 13, .rw, 2048, .range 64 4096⟩, ⟨13, 3, .rsv, 0, .keep⟩, ⟨16, 13, .rw, 1024, .special⟩,
      ⟨29, 1, .ro, 0, .keep⟩, ⟨30, 2, .rsv, 0, .keep⟩]⟩
  | .HN_ADM_SRC => ⟨0x01C00800, [(0x4, 160)], 32, .none, [  -- R74
      ⟨0, 2, .rw, 0, .keep⟩, ⟨2, 30, .rsv, 0, .keep⟩]⟩
  | .HN_ADM_RULE => ⟨0x01C01000, [(0x40, 160), (0x8, 8)], 64, .none, [  -- R74
      ⟨0, 8, .rw, 0, .keep⟩, ⟨8, 3, .rw, 4, .range 1 4⟩, ⟨11, 1, .rw, 0, .keep⟩,
      ⟨12, 2, .rw, 0, .keep⟩, ⟨14, 2, .rsv, 0, .keep⟩, ⟨16, 16, .rw, 0, .special⟩,
      ⟨32, 16, .rw, 65535, .special⟩, ⟨48, 16, .rsv, 0, .keep⟩]⟩
  | .HN_DISP_CTRL => ⟨0x01C00010, [], 64, .none, [  -- R80
      ⟨0, 10, .rw, 0, .range 1 1000⟩, ⟨10, 2, .rsv, 0, .keep⟩, ⟨12, 11, .rw, 1024, .range 64 2047⟩,
      ⟨23, 9, .rsv, 0, .keep⟩, ⟨32, 17, .ro, 0, .keep⟩, ⟨49, 7, .rsv, 0, .keep⟩,
      ⟨56, 5, .ro, 0, .keep⟩, ⟨61, 3, .rsv, 0, .keep⟩]⟩
  | .HN_FAULT_HEAD => ⟨0x01D20000, [(0x8, 2)], 64, .none, [  -- R103
      ⟨0, 10, .ro, 0, .keep⟩, ⟨10, 22, .rsv, 0, .keep⟩, ⟨32, 32, .ro, 0, .keep⟩]⟩
  | .SY_COAT_STATUS => ⟨0x00000200, [], 64, .readOnly, [  -- R593
      ⟨0, 1, .ro, 0, .keep⟩, ⟨1, 2, .ro, 0, .keep⟩, ⟨3, 5, .rsv, 0, .keep⟩, ⟨8, 24, .ro, 0, .keep⟩,
      ⟨32, 32, .ro, 0, .keep⟩]⟩
  | .LK_ASSOC_CFG => ⟨0x02000000, [], 32, .none, [  -- R208
      ⟨0, 9, .rw, 0, .range 4 256⟩, ⟨9, 23, .rsv, 0, .keep⟩]⟩
  | .LK_GANG => ⟨0x02000008, [], 32, .none, [  -- R208
      ⟨0, 2, .rw, 0, .into 3 3 0⟩, ⟨2, 2, .rw, 0, .into 3 3 0⟩, ⟨4, 2, .rw, 0, .into 3 3 0⟩,
      ⟨6, 2, .rw, 0, .into 3 3 0⟩, ⟨8, 2, .rw, 0, .into 3 3 0⟩, ⟨10, 2, .rw, 0, .into 3 3 0⟩,
      ⟨12, 2, .rw, 0, .into 3 3 0⟩, ⟨14, 2, .rw, 0, .into 3 3 0⟩, ⟨16, 2, .ro, 0, .keep⟩,
      ⟨18, 2, .ro, 0, .keep⟩, ⟨20, 2, .ro, 0, .keep⟩, ⟨22, 2, .ro, 0, .keep⟩, ⟨24, 2, .ro, 0, .keep⟩,
      ⟨26, 2, .ro, 0, .keep⟩, ⟨28, 2, .ro, 0, .keep⟩, ⟨30, 2, .ro, 0, .keep⟩]⟩
  | .LK_BANK_MODE => ⟨0x02000010, [], 64, .none, [  -- R208
      ⟨0, 32, .rw, 0, .keep⟩, ⟨32, 32, .ro, 0, .keep⟩]⟩
  | .LK_BANK_OOS => ⟨0x02000018, [], 32, .none, [  -- R208
      ⟨0, 32, .ro, 0, .keep⟩]⟩
  | .LK_TABLE_WIN => ⟨0x02000110, [], 32, .none, [  -- R239
      ⟨0, 2, .rw, 0, .keep⟩, ⟨2, 30, .rsv, 0, .keep⟩]⟩
  | .LK_VRF_MAP => ⟨0x02004000, [(0x4000, 2), (0x4, 4096)], 32, .none, [  -- R260
      ⟨0, 4, .rw, 0, .keep⟩, ⟨4, 28, .rsv, 0, .keep⟩]⟩
  | .LK_LPM_STATUS => ⟨0x02000118, [], 64, .none, [  -- R260
      ⟨0, 24, .ro, 0, .keep⟩, ⟨24, 8, .rsv, 0, .keep⟩, ⟨32, 1, .ro, 0, .keep⟩,
      ⟨33, 31, .rsv, 0, .keep⟩]⟩
  | .LK_LEARN_CTRL => ⟨0x02000108, [], 32, .none, [  -- R263
      ⟨0, 1, .rw, 1, .keep⟩, ⟨1, 13, .ro, 0, .keep⟩, ⟨14, 18, .rsv, 0, .keep⟩]⟩
  | .LK_AGE_CTRL => ⟨0x02000100, [], 64, .none, [  -- R268
      ⟨0, 16, .rw, 1000, .range 1 65535⟩, ⟨16, 16, .rw, 60, .range 1 16384⟩, ⟨32, 16, .ro, 0, .keep⟩,
      ⟨48, 1, .rw, 1, .keep⟩, ⟨49, 15, .rsv, 0, .keep⟩]⟩
  | .VT_POOL_GEOM => ⟨0x03001000, [(0x20, 64)], 64, .none, [  -- R280
      ⟨0, 2, .rw, 0, .into 3 3 0⟩, ⟨2, 2, .rsv, 0, .keep⟩, ⟨4, 27, .rw, 0, .special⟩,
      ⟨31, 1, .rsv, 0, .keep⟩, ⟨32, 27, .rw, 0, .special⟩, ⟨59, 4, .rsv, 0, .keep⟩,
      ⟨63, 1, .rw, 0, .special⟩]⟩
  | .VT_POOL_POLICY => ⟨0x03001008, [(0x20, 64)], 64, .none, [  -- R282
      ⟨0, 4, .rw, 0, .special⟩, ⟨4, 1, .rw, 0, .special⟩, ⟨5, 3, .rsv, 0, .keep⟩,
      ⟨8, 6, .rw, 0, .special⟩, ⟨14, 1, .rw, 0, .keep⟩, ⟨15, 1, .rsv, 0, .keep⟩,
      ⟨16, 24, .rw, 0, .keep⟩, ⟨40, 24, .rsv, 0, .keep⟩]⟩
  | .VT_POOL_STAT => ⟨0x03001010, [(0x20, 64)], 128, .none, [  -- R282
      ⟨0, 27, .ro, 0, .keep⟩, ⟨27, 5, .rsv, 0, .keep⟩, ⟨32, 27, .ro, 0, .keep⟩,
      ⟨59, 5, .rsv, 0, .keep⟩, ⟨64, 27, .ro, 0, .keep⟩, ⟨91, 36, .rsv, 0, .keep⟩,
      ⟨127, 1, .ro, 1, .keep⟩]⟩
  | .VT_OWNER => ⟨0x03010000, [(0x20, 4096)], 256, .none, [  -- R285
      ⟨0, 4, .rwo, 0, .keep⟩, ⟨4, 4, .rwo, 0, .keep⟩, ⟨8, 4, .rwo, 0, .keep⟩, ⟨12, 4, .rwo, 0, .keep⟩,
      ⟨16, 6, .rwo, 0, .keep⟩, ⟨22, 10, .rsv, 0, .keep⟩, ⟨32, 32, .rw, 4294967295, .keep⟩,
      ⟨64, 24, .rwo, 0, .special⟩, ⟨88, 24, .rwo, 0, .special⟩, ⟨112, 16, .rsv, 0, .keep⟩,
      ⟨128, 24, .rwo, 0, .special⟩, ⟨152, 24, .rwo, 0, .special⟩, ⟨176, 16, .rsv, 0, .keep⟩,
      ⟨192, 32, .rw, 4294967295, .keep⟩, ⟨224, 16, .rw, 8000, .range 1 65535⟩,
      ⟨240, 16, .rsv, 0, .keep⟩]⟩
  | .VT_EGR_OWNER => ⟨0x03003000, [(0x4, 256)], 32, .none, [  -- R285
      ⟨0, 12, .rw, 0, .keep⟩, ⟨12, 20, .rsv, 0, .keep⟩]⟩
  | .VT_OWNER_STAT => ⟨0x03030000, [(0x20, 4096)], 256, .none, [  -- R285
      ⟨0, 32, .ro, 0, .keep⟩, ⟨32, 32, .ro, 0, .keep⟩, ⟨64, 32, .ro, 0, .keep⟩,
      ⟨96, 24, .ro, 0, .keep⟩, ⟨128, 24, .ro, 0, .keep⟩, ⟨160, 24, .ro, 0, .keep⟩,
      ⟨192, 24, .ro, 0, .keep⟩, ⟨224, 32, .rsv, 0, .keep⟩]⟩
  | .VT_VOQ_AGE => ⟨0x03200000, [(0x4, 524288)], 32, .none, [  -- R293
      ⟨0, 22, .rw, 4000000, .range 1 4000000⟩, ⟨22, 10, .rsv, 0, .keep⟩]⟩
  | .VT_EQ_AGE => ⟨0x03400000, [(0x4, 32768)], 32, .none, [  -- R293
      ⟨0, 22, .rw, 4000000, .range 1 4000000⟩, ⟨22, 10, .rsv, 0, .keep⟩]⟩
  | .VT_BUF_CTRL => ⟨0x03000000, [], 64, .none, [  -- R293
      ⟨0, 16, .rw, 1000, .range 10 65535⟩, ⟨16, 4, .rw, 4, .range 0 10⟩, ⟨20, 12, .rsv, 0, .keep⟩,
      ⟨32, 32, .ro, 0, .keep⟩]⟩
  | .VT_ASSAY_STATUS => ⟨0x03000008, [], 64, .none, [  -- R298
      ⟨0, 32, .ro, 0, .keep⟩, ⟨32, 1, .ro, 0, .keep⟩, ⟨33, 31, .rsv, 0, .keep⟩]⟩
  | .VT_ASSAY => ⟨0x03050000, [(0x40, 4096)], 512, .none, [  -- R298
      ⟨0, 32, .ro, 0, .keep⟩, ⟨32, 32, .ro, 0, .keep⟩, ⟨64, 32, .ro, 0, .keep⟩,
      ⟨96, 32, .ro, 0, .keep⟩, ⟨128, 32, .ro, 0, .keep⟩, ⟨160, 32, .ro, 0, .keep⟩,
      ⟨192, 32, .ro, 0, .keep⟩, ⟨224, 32, .ro, 0, .keep⟩, ⟨256, 32, .ro, 0, .keep⟩,
      ⟨288, 32, .rsv, 0, .keep⟩, ⟨320, 33, .ro, 0, .keep⟩, ⟨353, 31, .rsv, 0, .keep⟩,
      ⟨384, 1, .w1c, 0, .keep⟩, ⟨385, 1, .ro, 0, .keep⟩, ⟨386, 30, .rsv, 0, .keep⟩,
      ⟨416, 32, .ro, 0, .keep⟩, ⟨448, 64, .rsv, 0, .keep⟩]⟩
  | .VT_MTR_WIN => ⟨0x03006000, [(0x20, 2)], 192, .none, [  -- R310
      ⟨0, 20, .rw, 0, .keep⟩, ⟨20, 4, .rsv, 0, .keep⟩, ⟨24, 2, .wo, 0, .keep⟩, ⟨26, 1, .ro, 0, .keep⟩,
      ⟨27, 37, .rsv, 0, .keep⟩, ⟨64, 64, .rw, 0, .keep⟩, ⟨128, 64, .rw, 0, .keep⟩]⟩
  | .VT_TPROF => ⟨0x03008000, [(0x8, 256)], 64, .none, [  -- R312
      ⟨0, 21, .rw, 4096, .keep⟩, ⟨21, 21, .rw, 2048, .special⟩, ⟨42, 21, .rw, 1024, .special⟩,
      ⟨63, 1, .rsv, 0, .keep⟩]⟩
  | .VT_QADM_CTRL => ⟨0x03000010, [], 64, .none, [  -- R316
      ⟨0, 16, .rw, 16384, .range 1 49152⟩, ⟨16, 16, .rw, 12288, .special⟩, ⟨32, 1, .ro, 0, .keep⟩,
      ⟨33, 31, .rsv, 0, .keep⟩]⟩
  | .VT_QADM_STAT => ⟨0x03000018, [], 64, .none, [  -- R316
      ⟨0, 48, .ro, 0, .keep⟩, ⟨48, 16, .rsv, 0, .keep⟩]⟩
  | .VT_PORT => ⟨0x03004000, [(0x10, 256)], 128, .none, [  -- R319
      ⟨0, 17, .rsv, 0, .keep⟩, ⟨17, 1, .rw, 0, .keep⟩, ⟨18, 18, .rw, 0, .keep⟩,
      ⟨36, 27, .rsv, 0, .keep⟩, ⟨63, 1, .rw, 0, .special⟩, ⟨64, 40, .ro, 0, .keep⟩,
      ⟨104, 2, .ro, 0, .keep⟩, ⟨106, 22, .rsv, 0, .keep⟩]⟩
  | .VT_NODE => ⟨0x03480000, [(0x10, 16384)], 128, .none, [  -- R319
      ⟨0, 17, .rw, 128, .range 1 65536⟩, ⟨17, 1, .rw, 0, .keep⟩, ⟨18, 18, .rw, 0, .keep⟩,
      ⟨36, 2, .rw, 3, .into 0 0 3⟩, ⟨38, 6, .rsv, 0, .keep⟩, ⟨44, 1, .rw, 0, .keep⟩,
      ⟨45, 2, .rw, 0, .special⟩, ⟨47, 1, .rsv, 0, .keep⟩, ⟨48, 14, .rw, 0, .special⟩,
      ⟨62, 1, .rsv, 0, .keep⟩, ⟨63, 1, .rw, 0, .keep⟩, ⟨64, 40, .ro, 0, .keep⟩,
      ⟨104, 1, .ro, 0, .keep⟩, ⟨105, 23, .rsv, 0, .keep⟩]⟩
  | .VT_EQ => ⟨0x03500000, [(0x10, 32768)], 128, .none, [  -- R319
      ⟨0, 17, .rw, 128, .range 1 65536⟩, ⟨17, 1, .rw, 0, .keep⟩, ⟨18, 18, .rw, 0, .keep⟩,
      ⟨36, 8, .rw, 0, .keep⟩, ⟨44, 1, .rw, 0, .keep⟩, ⟨45, 2, .rw, 0, .keep⟩, ⟨47, 1, .rsv, 0, .keep⟩,
      ⟨48, 14, .rw, 0, .special⟩, ⟨62, 1, .rsv, 0, .keep⟩, ⟨63, 1, .rw, 0, .keep⟩,
      ⟨64, 40, .ro, 0, .keep⟩, ⟨104, 1, .ro, 0, .keep⟩, ⟨105, 23, .rsv, 0, .keep⟩]⟩
  | .VT_DEST => ⟨0x03580000, [(0x8, 65536)], 64, .none, [  -- R319
      ⟨0, 17, .rw, 128, .range 1 65536⟩, ⟨17, 1, .rw, 0, .keep⟩, ⟨18, 18, .rw, 0, .keep⟩,
      ⟨36, 28, .rsv, 0, .keep⟩]⟩
  | .VT_VOQ => ⟨0x03800000, [(0x10, 524288)], 128, .none, [  -- R319
      ⟨0, 17, .rw, 128, .range 1 65536⟩, ⟨17, 1, .rw, 0, .keep⟩, ⟨18, 18, .rw, 0, .keep⟩,
      ⟨36, 8, .rw, 0, .keep⟩, ⟨44, 1, .rw, 0, .keep⟩, ⟨45, 19, .rsv, 0, .keep⟩,
      ⟨64, 40, .ro, 0, .keep⟩, ⟨104, 24, .rsv, 0, .keep⟩]⟩
  | .VT_SHAPER => ⟨0x03600000, [(0x8, 262144)], 64, .none, [  -- R329
      ⟨0, 27, .rw, 100000000, .range 1 100000000⟩, ⟨27, 24, .rw, 16384, .keep⟩,
      ⟨51, 7, .rw, 0, .keep⟩, ⟨58, 6, .rsv, 0, .keep⟩]⟩
  | .VT_DRAIN_CTRL => ⟨0x03000020, [], 32, .none, [  -- R332
      ⟨0, 20, .rw, 10000, .range 1 1000000⟩, ⟨20, 12, .rsv, 0, .keep⟩]⟩
  | .FB_MODE => ⟨0x00100000, [], 64, .none, [  -- R339
      ⟨0, 2, .rw, 2, .keep⟩, ⟨2, 2, .ro, 2, .keep⟩, ⟨4, 1, .ro, 0, .keep⟩, ⟨5, 3, .rsv, 0, .keep⟩,
      ⟨8, 6, .rw, 0, .keep⟩, ⟨14, 2, .rsv, 0, .keep⟩, ⟨16, 6, .ro, 0, .keep⟩, ⟨22, 2, .rsv, 0, .keep⟩,
      ⟨24, 6, .rw, 63, .keep⟩, ⟨30, 1, .rw, 0, .special⟩, ⟨31, 33, .rsv, 0, .keep⟩]⟩
  | .FB_LINK => ⟨0x00101000, [(0x8, 48)], 64, .none, [  -- R343
      ⟨0, 1, .rw, 0, .special⟩, ⟨1, 1, .rw, 0, .keep⟩, ⟨2, 3, .rw, 0, .special⟩,
      ⟨5, 3, .rsv, 0, .keep⟩, ⟨8, 2, .ro, 0, .keep⟩, ⟨10, 2, .ro, 0, .keep⟩, ⟨12, 4, .rsv, 0, .keep⟩,
      ⟨16, 6, .ro, 0, .keep⟩, ⟨22, 42, .rsv, 0, .keep⟩]⟩
  | .FB_FC_CTRL => ⟨0x00100110, [], 32, .none, [  -- R350
      ⟨0, 16, .rw, 2048, .range 16 65535⟩, ⟨16, 16, .rw, 1024, .special⟩]⟩
  | .FB_REORDER_CTRL => ⟨0x00100100, [], 32, .none, [  -- R354
      ⟨0, 7, .rw, 64, .range 8 64⟩, ⟨7, 25, .rsv, 0, .keep⟩]⟩
  | .FB_EXPRESS => ⟨0x00100108, [], 32, .none, [  -- R358
      ⟨0, 11, .rw, 64, .range 2 1024⟩, ⟨11, 5, .rsv, 0, .keep⟩, ⟨16, 10, .rw, 200, .range 10 1000⟩,
      ⟨26, 6, .rsv, 0, .keep⟩]⟩
  | .FB_REPL_CTRL => ⟨0x00100118, [], 32, .none, [  -- R362
      ⟨0, 14, .rw, 100, .range 1 10000⟩, ⟨14, 18, .rsv, 0, .keep⟩]⟩
  | .FB_GROUP => ⟨0x00110000, [(0x10, 1024)], 128, .none, [  -- R362
      ⟨0, 64, .rw, 0, .keep⟩, ⟨64, 16, .rw, 0, .keep⟩, ⟨80, 11, .rw, 0, .special⟩,
      ⟨91, 37, .rsv, 0, .keep⟩]⟩
  | .FB_REPL => ⟨0x00120000, [(0x4, 65536)], 32, .none, [  -- R362
      ⟨0, 8, .rw, 0, .range 0 159⟩, ⟨8, 1, .rw, 0, .keep⟩, ⟨9, 7, .rsv, 0, .keep⟩,
      ⟨16, 15, .rw, 0, .keep⟩, ⟨31, 1, .rsv, 0, .keep⟩]⟩
  | .FB_MSESS => ⟨0x00160000, [(0x8, 1024)], 64, .none, [  -- R366
      ⟨0, 16, .rw, 0, .keep⟩, ⟨16, 3, .rw, 0, .keep⟩, ⟨19, 1, .rw, 0, .keep⟩, ⟨20, 15, .rw, 0, .keep⟩,
      ⟨35, 1, .rsv, 0, .keep⟩, ⟨36, 9, .rw, 0, .range 0 256⟩, ⟨45, 3, .rsv, 0, .keep⟩,
      ⟨48, 16, .rw, 0, .keep⟩]⟩
  | .FB_MSRC => ⟨0x00162000, [(0x4, 160)], 32, .none, [  -- R366
      ⟨0, 10, .rw, 0, .keep⟩, ⟨10, 1, .rw, 0, .keep⟩, ⟨11, 21, .rsv, 0, .keep⟩]⟩
  | .FB_MDST => ⟨0x00162400, [(0x4, 160)], 32, .none, [  -- R366
      ⟨0, 10, .rw, 0, .keep⟩, ⟨10, 1, .rw, 0, .keep⟩, ⟨11, 21, .rsv, 0, .keep⟩]⟩
  | .TN_CTRL => ⟨0x000B0000, [], 64, .readOnly, [  -- R375
      ⟨0, 1, .rw, 0, .special⟩, ⟨1, 1, .rw, 1, .keep⟩, ⟨2, 10, .rw, 20, .range 3 1000⟩,
      ⟨12, 10, .rw, 64, .range 1 1023⟩, ⟨22, 2, .wo, 0, .keep⟩, ⟨24, 1, .rw, 1, .keep⟩,
      ⟨25, 16, .rw, 2000, .range 100 60000⟩, ⟨41, 23, .rsv, 0, .keep⟩]⟩
  | .TN_STATUS => ⟨0x000B0008, [], 64, .readOnly, [  -- R375
      ⟨0, 3, .ro, 0, .keep⟩, ⟨3, 1, .ro, 0, .keep⟩, ⟨4, 1, .w1c, 0, .keep⟩, ⟨5, 2, .ro, 0, .keep⟩,
      ⟨7, 1, .ro, 0, .keep⟩, ⟨8, 6, .ro, 0, .keep⟩, ⟨14, 18, .rsv, 0, .keep⟩, ⟨32, 32, .ro, 0, .keep⟩]⟩
  | .TN_STREAM_WIN => ⟨0x000B0100, [], 192, .none, [  -- R385
      ⟨0, 16, .rw, 0, .keep⟩, ⟨16, 8, .rsv, 0, .keep⟩, ⟨24, 2, .wo, 0, .keep⟩, ⟨26, 1, .ro, 0, .keep⟩,
      ⟨27, 37, .rsv, 0, .keep⟩, ⟨64, 64, .rw, 0, .keep⟩, ⟨128, 64, .rw, 0, .keep⟩]⟩
  | .TN_DIV => ⟨0x000B0010, [], 64, .readOnly, [  -- R391
      ⟨0, 16, .rw, 500, .range 10 10000⟩, ⟨16, 9, .rw, 8, .range 1 256⟩, ⟨25, 7, .rsv, 0, .keep⟩,
      ⟨32, 16, .rw, 1000, .range 1 65535⟩, ⟨48, 16, .rsv, 0, .keep⟩]⟩
  | .FR_TARGET => ⟨0x000A1000, [(0x40, 72)], 512, .none, [  -- R410
      ⟨0, 2, .rwo, 0, .special⟩, ⟨2, 1, .rwo, 0, .special⟩, ⟨3, 5, .rsv, 0, .keep⟩,
      ⟨8, 3, .ro, 0, .keep⟩, ⟨11, 5, .rsv, 0, .keep⟩, ⟨16, 1, .rwo, 0, .keep⟩,
      ⟨17, 7, .rsv, 0, .keep⟩, ⟨24, 8, .rwo, 0, .range 0 159⟩, ⟨32, 32, .rwo, 1, .special⟩,
      ⟨64, 30, .rwo, 0, .keep⟩, ⟨94, 2, .rsv, 0, .keep⟩, ⟨96, 31, .rwo, 0, .special⟩,
      ⟨127, 1, .rsv, 0, .keep⟩, ⟨128, 64, .rwo, 0, .special⟩, ⟨192, 32, .rwo, 0, .keep⟩,
      ⟨224, 15, .rwo, 0, .keep⟩, ⟨239, 17, .rsv, 0, .keep⟩, ⟨256, 32, .rwo, 0, .keep⟩,
      ⟨288, 10, .ro, 0, .keep⟩, ⟨298, 22, .rsv, 0, .keep⟩, ⟨320, 64, .ro, 0, .keep⟩,
      ⟨384, 30, .ro, 0, .keep⟩, ⟨414, 98, .rsv, 0, .keep⟩]⟩
  | .FR_TEMPLATE => ⟨0x000A4000, [(0x80, 72)], 1024, .none, [  -- R417
      ⟨0, 1016, .rwo, 0, .keep⟩, ⟨1016, 8, .rwo, 42, .range 42 66⟩]⟩
  | .FR_CTRL => ⟨0x000A0000, [], 64, .none, [  -- R422
      ⟨0, 1, .rwo, 0, .keep⟩, ⟨1, 3, .rsv, 0, .keep⟩, ⟨4, 2, .wo, 0, .keep⟩, ⟨6, 10, .rsv, 0, .keep⟩,
      ⟨16, 16, .rwo, 1000, .range 1 60000⟩, ⟨32, 16, .rwo, 0, .keep⟩,
      ⟨48, 10, .rwo, 973, .range 512 1023⟩, ⟨58, 6, .rsv, 0, .keep⟩]⟩
  | .FR_STATUS => ⟨0x000A0008, [], 64, .readOnly, [  -- R422
      ⟨0, 3, .ro, 0, .keep⟩, ⟨3, 1, .ro, 0, .keep⟩, ⟨4, 12, .rsv, 0, .keep⟩, ⟨16, 12, .ro, 0, .keep⟩,
      ⟨28, 4, .rsv, 0, .keep⟩, ⟨32, 32, .ro, 0, .keep⟩]⟩
  | .FR_DURABLE => ⟨0x000A0010, [], 64, .readOnly, [  -- R422
      ⟨0, 64, .ro, 0, .keep⟩]⟩
  | .FR_DIGEST => ⟨0x000A0020, [], 256, .readOnly, [  -- R422
      ⟨0, 256, .ro, 0, .keep⟩]⟩
  | .FR_READ => ⟨0x000A0100, [], 320, .none, [  -- R424
      ⟨0, 2, .wo, 0, .into 3 3 0⟩, ⟨2, 1, .ro, 0, .keep⟩, ⟨3, 1, .rsv, 0, .keep⟩,
      ⟨4, 4, .ro, 0, .keep⟩, ⟨8, 56, .rsv, 0, .keep⟩, ⟨64, 64, .rw, 0, .keep⟩,
      ⟨128, 64, .rw, 0, .special⟩, ⟨192, 64, .rw, 0, .special⟩, ⟨256, 64, .ro, 0, .keep⟩]⟩
  | .TW_CH_CTRL => ⟨0x00080000, [(0x40, 128)], 64, .readOnly, [  -- R444
      ⟨0, 2, .wo, 0, .into 3 3 0⟩, ⟨2, 1, .wo, 0, .keep⟩, ⟨3, 5, .rsv, 0, .keep⟩,
      ⟨8, 6, .rwo, 0, .keep⟩, ⟨14, 2, .rsv, 0, .keep⟩, ⟨16, 2, .rw, 0, .into 3 3 0⟩,
      ⟨18, 6, .rsv, 0, .keep⟩, ⟨24, 7, .rw, 0, .special⟩, ⟨31, 1, .rsv, 0, .keep⟩,
      ⟨32, 5, .rw, 1, .range 1 16⟩, ⟨37, 27, .rsv, 0, .keep⟩]⟩
  | .TW_CH_PC => ⟨0x00080008, [(0x40, 128)], 64, .readOnly, [  -- R444
      ⟨0, 3, .rsv, 0, .keep⟩, ⟨3, 61, .rw, 0, .keep⟩]⟩
  | .TW_CH_COUNT => ⟨0x00080010, [(0x40, 128)], 64, .readOnly, [  -- R444
      ⟨0, 32, .rw, 0, .keep⟩, ⟨32, 32, .ro, 0, .keep⟩]⟩
  | .TW_CH_STATUS => ⟨0x00080018, [(0x40, 128)], 64, .readOnly, [  -- R444
      ⟨0, 3, .ro, 0, .keep⟩, ⟨3, 1, .ro, 0, .keep⟩, ⟨4, 4, .ro, 0, .keep⟩, ⟨8, 5, .ro, 0, .keep⟩,
      ⟨13, 19, .rsv, 0, .keep⟩, ⟨32, 32, .ro, 0, .keep⟩]⟩
  | .TW_TIMER => ⟨0x00084000, [(0x8, 16)], 64, .readOnly, [  -- R444
      ⟨0, 24, .rw, 1000, .range 1 16777215⟩, ⟨24, 1, .rw, 0, .keep⟩, ⟨25, 7, .rsv, 0, .keep⟩,
      ⟨32, 32, .ro, 0, .keep⟩]⟩
  | .TW_DOORBELL => ⟨0x00086000, [], 32, .perRealm, [  -- R444
      ⟨0, 7, .wo, 0, .keep⟩, ⟨7, 1, .rsv, 0, .keep⟩, ⟨8, 2, .wo, 0, .keep⟩, ⟨10, 22, .rsv, 0, .keep⟩]⟩
  | .HB_CTRL => ⟨0x000C0000, [(0x10000, 3)], 64, .none, [  -- R465
      ⟨0, 1, .rw, 1, .keep⟩, ⟨1, 15, .rw, 10, .range 1 10000⟩, ⟨16, 5, .rw, 24, .range 1 24⟩,
      ⟨21, 3, .rsv, 0, .keep⟩, ⟨24, 4, .rw, 4, .range 1 15⟩, ⟨28, 1, .rw, 1, .keep⟩,
      ⟨29, 35, .rsv, 0, .keep⟩]⟩
  | .HB_STATUS => ⟨0x000C0008, [(0x10000, 3)], 64, .readOnly, [  -- R465
      ⟨0, 3, .ro, 0, .keep⟩, ⟨3, 1, .ro, 0, .keep⟩, ⟨4, 4, .rsv, 0, .keep⟩, ⟨8, 8, .ro, 0, .keep⟩,
      ⟨16, 16, .ro, 0, .keep⟩, ⟨32, 16, .ro, 0, .keep⟩, ⟨48, 6, .ro, 0, .keep⟩,
      ⟨54, 10, .rsv, 0, .keep⟩]⟩
  | .HB_RETIRE => ⟨0x000C0010, [(0x10000, 3)], 64, .none, [  -- R465
      ⟨0, 4, .rwo, 0, .keep⟩, ⟨4, 4, .rwo, 0, .special⟩, ⟨8, 1, .wo, 0, .special⟩,
      ⟨9, 1, .ro, 0, .keep⟩, ⟨10, 6, .rsv, 0, .keep⟩, ⟨16, 23, .ro, 0, .keep⟩,
      ⟨39, 25, .rsv, 0, .keep⟩]⟩
  | .HB_ERRLOG => ⟨0x000C0100, [(0x10000, 3), (0x10, 64)], 128, .readOnly, [  -- R465
      ⟨0, 35, .ro, 0, .keep⟩, ⟨35, 1, .ro, 0, .keep⟩, ⟨36, 3, .ro, 0, .keep⟩,
      ⟨39, 25, .rsv, 0, .keep⟩, ⟨64, 64, .ro, 0, .keep⟩]⟩
  | .PT_PORT => ⟨0x00040000, [(0x40, 32)], 64, .readOnly, [  -- R468
      ⟨0, 1, .rw, 0, .special⟩, ⟨1, 4, .rw, 0, .special⟩, ⟨5, 2, .rw, 0, .special⟩,
      ⟨7, 1, .rw, 0, .special⟩, ⟨8, 8, .rw, 0, .special⟩, ⟨16, 8, .rw, 0, .special⟩,
      ⟨24, 1, .rw, 0, .special⟩, ⟨25, 7, .rsv, 0, .keep⟩, ⟨32, 16, .rw, 0, .keep⟩,
      ⟨48, 16, .rw, 0, .keep⟩]⟩
  | .PT_PORT_STATUS => ⟨0x00040008, [(0x40, 32)], 64, .readOnly, [  -- R468
      ⟨0, 1, .ro, 0, .keep⟩, ⟨1, 1, .ro, 0, .keep⟩, ⟨2, 1, .ro, 0, .keep⟩, ⟨3, 1, .ro, 0, .keep⟩,
      ⟨4, 4, .rsv, 0, .keep⟩, ⟨8, 8, .ro, 0, .keep⟩, ⟨16, 48, .rsv, 0, .keep⟩]⟩
  | .PT_FLEXE_GRP => ⟨0x00042000, [(0x10, 8)], 128, .none, [  -- R471
      ⟨0, 32, .rw, 0, .special⟩, ⟨32, 1, .rw, 0, .special⟩, ⟨33, 1, .ro, 0, .keep⟩,
      ⟨34, 1, .wo, 0, .keep⟩, ⟨35, 1, .ro, 0, .keep⟩, ⟨36, 28, .rsv, 0, .keep⟩,
      ⟨64, 20, .rw, 1, .range 1 1048574⟩, ⟨84, 44, .rsv, 0, .keep⟩]⟩
  | .PT_FLEXE_CAL => ⟨0x00060000, [(0x1000, 16), (0x4, 640)], 32, .none, [  -- R471
      ⟨0, 8, .rw, 255, .into 128 254 255⟩, ⟨8, 24, .rsv, 0, .keep⟩]⟩
  | .PT_MACSEC => ⟨0x0004D000, [(0x10, 32)], 128, .none, [  -- R479
      ⟨0, 1, .rw, 0, .keep⟩, ⟨1, 1, .rw, 1, .keep⟩, ⟨2, 2, .rw, 0, .into 3 3 0⟩,
      ⟨4, 1, .rw, 0, .keep⟩, ⟨5, 1, .rw, 1, .keep⟩, ⟨6, 2, .rw, 0, .keep⟩,
      ⟨8, 2, .rw, 2, .into 3 3 2⟩, ⟨10, 1, .rw, 1, .keep⟩, ⟨11, 1, .rsv, 0, .keep⟩,
      ⟨12, 32, .rw, 0, .special⟩, ⟨44, 16, .rw, 0, .keep⟩, ⟨60, 1, .rw, 0, .keep⟩,
      ⟨61, 3, .rsv, 0, .keep⟩, ⟨64, 64, .rw, 0, .keep⟩]⟩
  | .PT_RXSC => ⟨0x0004E000, [(0x80, 32), (0x10, 8)], 128, .none, [  -- R479
      ⟨0, 1, .rw, 0, .keep⟩, ⟨1, 63, .rsv, 0, .keep⟩, ⟨64, 64, .rw, 0, .keep⟩]⟩
  | .PT_SA_WIN => ⟨0x0004F000, [], 576, .none, [  -- R479
      ⟨0, 11, .rw, 0, .range 0 1151⟩, ⟨11, 13, .rsv, 0, .keep⟩, ⟨24, 2, .wo, 0, .into 3 3 0⟩,
      ⟨26, 1, .ro, 0, .keep⟩, ⟨27, 37, .rsv, 0, .keep⟩, ⟨64, 512, .rw, 0, .keep⟩]⟩
  | .PT_TIME_CTRL => ⟨0x00050000, [], 64, .readOnly, [  -- R482
      ⟨0, 2, .rw, 0, .into 3 3 0⟩, ⟨2, 5, .rw, 0, .keep⟩, ⟨7, 1, .rw, 0, .keep⟩,
      ⟨8, 1, .rw, 0, .keep⟩, ⟨9, 23, .rsv, 0, .keep⟩, ⟨32, 32, .rw, 0, .special⟩]⟩
  | .PT_TIME_ADJ => ⟨0x00050010, [], 128, .none, [  -- R482
      ⟨0, 2, .wo, 0, .into 3 3 0⟩, ⟨2, 62, .rsv, 0, .keep⟩, ⟨64, 64, .rw, 0, .special⟩]⟩
  | .PT_TIME_STATUS => ⟨0x00050020, [], 128, .readOnly, [  -- R482
      ⟨0, 63, .ro, 0, .keep⟩, ⟨63, 1, .ro, 1, .keep⟩, ⟨64, 64, .ro, 0, .keep⟩]⟩
  | .PT_TS_FIFO => ⟨0x00040010, [(0x40, 32)], 128, .none, [  -- R486
      ⟨0, 1, .rc, 0, .keep⟩, ⟨1, 15, .rsv, 0, .keep⟩, ⟨16, 16, .rc, 0, .keep⟩,
      ⟨32, 32, .rsv, 0, .keep⟩, ⟨64, 64, .ro, 0, .keep⟩]⟩
  | .PT_PPS => ⟨0x00050030, [], 64, .readOnly, [  -- R488
      ⟨0, 1, .rw, 0, .keep⟩, ⟨1, 1, .rw, 0, .keep⟩, ⟨2, 14, .rsv, 0, .keep⟩,
      ⟨16, 10, .rw, 100, .range 1 900⟩, ⟨26, 6, .rsv, 0, .keep⟩, ⟨32, 1, .rw, 0, .keep⟩,
      ⟨33, 1, .rw, 0, .keep⟩, ⟨34, 14, .rsv, 0, .keep⟩, ⟨48, 16, .rw, 0, .keep⟩]⟩
  | .PT_SYNCE => ⟨0x00050038, [(0x8, 2)], 64, .readOnly, [  -- R488
      ⟨0, 2, .rw, 0, .special⟩, ⟨2, 5, .rw, 0, .keep⟩, ⟨7, 1, .ro, 1, .keep⟩, ⟨8, 56, .rsv, 0, .keep⟩]⟩
  | .SY_SVC_CMD => ⟨0x00000300, [], 32, .none, [  -- R493
      ⟨0, 8, .rw, 255, .special⟩, ⟨8, 2, .wo, 0, .keep⟩, ⟨10, 1, .rw, 0, .keep⟩,
      ⟨11, 1, .ro, 0, .keep⟩, ⟨12, 4, .ro, 0, .keep⟩, ⟨16, 16, .rsv, 0, .keep⟩]⟩
  | .SY_SVC_CTRL => ⟨0x00000308, [], 64, .none, [  -- R494
      ⟨0, 1, .rw, 1, .keep⟩, ⟨1, 7, .rsv, 0, .keep⟩, ⟨8, 8, .rw, 4, .range 1 255⟩,
      ⟨16, 16, .rw, 1000, .range 1 60000⟩, ⟨32, 16, .rw, 64, .range 1 65535⟩,
      ⟨48, 8, .rw, 3, .range 1 255⟩, ⟨56, 8, .rsv, 0, .keep⟩]⟩
  | .SY_SVC_UNIT => ⟨0x00000400, [(0x8, 144)], 64, .readOnly, [  -- R494
      ⟨0, 3, .ro, 0, .keep⟩, ⟨3, 5, .rsv, 0, .keep⟩, ⟨8, 6, .ro, 63, .keep⟩, ⟨14, 2, .rsv, 0, .keep⟩,
      ⟨16, 16, .ro, 0, .keep⟩, ⟨32, 16, .ro, 0, .keep⟩, ⟨48, 16, .rsv, 0, .keep⟩]⟩
  | .LT_LIFE_HEAD => ⟨0x0001C400, [], 32, .readOnly, [  -- R519
      ⟨0, 8, .ro, 0, .keep⟩, ⟨8, 24, .ro, 0, .keep⟩]⟩
  | .LT_SUPPLY => ⟨0x00010000, [], 64, .readOnly, [  -- R524
      ⟨0, 16, .ro, 0, .keep⟩, ⟨16, 16, .ro, 0, .keep⟩, ⟨32, 1, .ro, 0, .keep⟩, ⟨33, 1, .ro, 0, .keep⟩,
      ⟨34, 1, .ro, 0, .keep⟩, ⟨35, 1, .ro, 0, .keep⟩, ⟨36, 28, .rsv, 0, .keep⟩]⟩
  | .LT_CHAN => ⟨0x00010100, [(0x8, 32)], 64, .readOnly, [  -- R528
      ⟨0, 6, .rwo, 0, .range 0 49⟩, ⟨6, 2, .rsv, 0, .keep⟩, ⟨8, 2, .rwo, 2, .keep⟩,
      ⟨10, 22, .rsv, 0, .keep⟩, ⟨32, 32, .ro, 0, .keep⟩]⟩
  | .LT_RULE => ⟨0x00012000, [(0x10, 256)], 128, .readOnly, [  -- R534
      ⟨0, 1, .rwo, 0, .keep⟩, ⟨1, 5, .rwo, 0, .keep⟩, ⟨6, 2, .rwo, 0, .keep⟩, ⟨8, 1, .rwo, 0, .keep⟩,
      ⟨9, 11, .rwo, 0, .range 1 1024⟩, ⟨20, 4, .rwo, 0, .into 8 15 0⟩, ⟨24, 8, .rwo, 0, .special⟩,
      ⟨32, 32, .rwo, 0, .keep⟩, ⟨64, 32, .rwo, 0, .keep⟩, ⟨96, 32, .rwo, 0, .range 1 36000000⟩]⟩
  | .LT_RULE_STAT => ⟨0x00013000, [(0x8, 4)], 64, .readOnly, [  -- R534
      ⟨0, 64, .ro, 0, .keep⟩]⟩
  | .LT_THROTTLE => ⟨0x00010038, [], 32, .readOnly, [  -- R534
      ⟨0, 4, .ro, 0, .keep⟩, ⟨4, 4, .ro, 0, .keep⟩, ⟨8, 4, .ro, 0, .keep⟩, ⟨12, 4, .ro, 0, .keep⟩,
      ⟨16, 4, .ro, 0, .keep⟩, ⟨20, 12, .rsv, 0, .keep⟩]⟩
  | .LT_EVLOG_HEAD => ⟨0x00010030, [], 32, .readOnly, [  -- R535
      ⟨0, 9, .ro, 0, .keep⟩, ⟨9, 23, .ro, 0, .keep⟩]⟩
  | .LT_POWER => ⟨0x00010008, [], 32, .readOnly, [  -- R537
      ⟨0, 2, .rwo, 3, .into 0 0 3⟩, ⟨2, 2, .rsv, 0, .keep⟩, ⟨4, 3, .ro, 1, .keep⟩,
      ⟨7, 1, .ro, 0, .keep⟩, ⟨8, 2, .ro, 0, .keep⟩, ⟨10, 6, .rsv, 0, .keep⟩, ⟨16, 8, .ro, 255, .keep⟩,
      ⟨24, 8, .rsv, 0, .keep⟩]⟩
  | .LT_DOMAIN => ⟨0x00010010, [], 64, .readOnly, [  -- R537
      ⟨0, 17, .rwo, 0, .special⟩, ⟨17, 15, .rsv, 0, .keep⟩, ⟨32, 32, .rwo, 0, .keep⟩]⟩
  | .LT_HOLDOVER => ⟨0x00010018, [], 32, .readOnly, [  -- R542
      ⟨0, 8, .rwo, 192, .keep⟩, ⟨8, 8, .rsv, 0, .keep⟩, ⟨16, 10, .rwo, 50, .range 0 1000⟩,
      ⟨26, 6, .rsv, 0, .keep⟩]⟩
  | .LT_WAKE => ⟨0x00010020, [], 32, .readOnly, [  -- R551
      ⟨0, 9, .ro, 511, .keep⟩, ⟨9, 1, .ro, 0, .keep⟩, ⟨10, 1, .ro, 0, .keep⟩, ⟨11, 1, .w1c, 0, .keep⟩,
      ⟨12, 4, .rsv, 0, .keep⟩, ⟨16, 8, .ro, 0, .keep⟩, ⟨24, 8, .rsv, 0, .keep⟩]⟩
  | .LT_BOOT => ⟨0x00010028, [], 32, .readOnly, [  -- R554
      ⟨0, 2, .ro, 0, .keep⟩, ⟨2, 1, .ro, 0, .keep⟩, ⟨3, 1, .ro, 0, .keep⟩, ⟨4, 1, .ro, 0, .keep⟩,
      ⟨5, 3, .rsv, 0, .keep⟩, ⟨8, 8, .ro, 0, .keep⟩, ⟨16, 16, .ro, 0, .keep⟩]⟩
  | .PC_EVENT => ⟨0x00020000, [(0x8, 1280)], 64, .none, [  -- R561
      ⟨0, 64, .ro, 0, .keep⟩]⟩
  | .PC_FILTER => ⟨0x00028020, [], 192, .perRealm, [  -- R563
      ⟨0, 3, .rw, 7, .keep⟩, ⟨3, 1, .rsv, 0, .keep⟩, ⟨4, 3, .rw, 0, .into 5 7 0⟩,
      ⟨7, 1, .rsv, 0, .keep⟩, ⟨8, 7, .rw, 0, .special⟩, ⟨15, 1, .rsv, 0, .keep⟩,
      ⟨16, 8, .rw, 255, .keep⟩, ⟨24, 40, .rsv, 0, .keep⟩, ⟨64, 64, .rw, 0, .keep⟩,
      ⟨128, 64, .rw, 0, .special⟩]⟩
  | .PC_VIEW => ⟨0x00028000, [], 32, .perRealm, [  -- R563
      ⟨0, 6, .rw, 0, .special⟩, ⟨6, 26, .rsv, 0, .keep⟩]⟩
  | .PC_BANK => ⟨0x00024000, [(0x8, 1280)], 64, .perRealm, [  -- R563
      ⟨0, 64, .ro, 0, .keep⟩]⟩
  | .PC_HR_CTRL => ⟨0x00028100, [], 64, .none, [  -- R568
      ⟨0, 1, .rw, 0, .keep⟩, ⟨1, 3, .rw, 4, .range 0 7⟩, ⟨4, 4, .rsv, 0, .keep⟩,
      ⟨8, 56, .rw, 0, .keep⟩]⟩
  | .PC_HR_STATUS => ⟨0x00028108, [], 64, .readOnly, [  -- R568
      ⟨0, 64, .ro, 0, .keep⟩]⟩
  | .TN_TWIN_REPORT => ⟨0x000B1000, [], 2048, .readOnly, [  -- R568
      ⟨0, 2048, .ro, 0, .keep⟩]⟩

/-- Every register family, in the order of the manual. -/
def allRegs : List Reg :=
  [.SY_REFUSED_ACCESS, .SY_REALM_CTRL, .SY_INT_ROUTE, .SY_ABI_SELECT, .SY_HALLMARK, .SY_IMAGE_STATUS, .SY_RING_BASE, .SY_RING_PTRS, .SY_RING_COAL, .SY_PUNT_BASE, .SY_PUNT_PTRS, .HN_ADM_CTRL, .HN_ADM_SRC, .HN_ADM_RULE, .HN_DISP_CTRL, .HN_FAULT_HEAD, .SY_COAT_STATUS, .LK_ASSOC_CFG, .LK_GANG, .LK_BANK_MODE, .LK_BANK_OOS, .LK_TABLE_WIN, .LK_VRF_MAP, .LK_LPM_STATUS] ++
  [.LK_LEARN_CTRL, .LK_AGE_CTRL, .VT_POOL_GEOM, .VT_POOL_POLICY, .VT_POOL_STAT, .VT_OWNER, .VT_EGR_OWNER, .VT_OWNER_STAT, .VT_VOQ_AGE, .VT_EQ_AGE, .VT_BUF_CTRL, .VT_ASSAY_STATUS, .VT_ASSAY, .VT_MTR_WIN, .VT_TPROF, .VT_QADM_CTRL, .VT_QADM_STAT, .VT_PORT, .VT_NODE, .VT_EQ, .VT_DEST, .VT_VOQ, .VT_SHAPER, .VT_DRAIN_CTRL] ++
  [.FB_MODE, .FB_LINK, .FB_FC_CTRL, .FB_REORDER_CTRL, .FB_EXPRESS, .FB_REPL_CTRL, .FB_GROUP, .FB_REPL, .FB_MSESS, .FB_MSRC, .FB_MDST, .TN_CTRL, .TN_STATUS, .TN_STREAM_WIN, .TN_DIV, .FR_TARGET, .FR_TEMPLATE, .FR_CTRL, .FR_STATUS, .FR_DURABLE, .FR_DIGEST, .FR_READ, .TW_CH_CTRL, .TW_CH_PC] ++
  [.TW_CH_COUNT, .TW_CH_STATUS, .TW_TIMER, .TW_DOORBELL, .HB_CTRL, .HB_STATUS, .HB_RETIRE, .HB_ERRLOG, .PT_PORT, .PT_PORT_STATUS, .PT_FLEXE_GRP, .PT_FLEXE_CAL, .PT_MACSEC, .PT_RXSC, .PT_SA_WIN, .PT_TIME_CTRL, .PT_TIME_ADJ, .PT_TIME_STATUS, .PT_TS_FIFO, .PT_PPS, .PT_SYNCE, .SY_SVC_CMD, .SY_SVC_CTRL, .SY_SVC_UNIT] ++
  [.LT_LIFE_HEAD, .LT_SUPPLY, .LT_CHAN, .LT_RULE, .LT_RULE_STAT, .LT_THROTTLE, .LT_EVLOG_HEAD, .LT_POWER, .LT_DOMAIN, .LT_HOLDOVER, .LT_WAKE, .LT_BOOT, .PC_EVENT, .PC_FILTER, .PC_VIEW, .PC_BANK, .PC_HR_CTRL, .PC_HR_STATUS, .TN_TWIN_REPORT]

end Sys2Proof.Machine
end

