-- ==== Sys2Proof/Machine/State.lean ====
section
/-! DEFINITION. The state of the module as plain data: the queue of waiting commands, the registers, and
the state each chapter of the manual gives its unit. -/

namespace Sys2Proof.Machine

/-! ### Reasons a step can stop -/

/-- Faults of the model. No command of this block ends the machine: what the manual calls a fault is a
thread fault (R98) or a Trowel fault (R430), which are effects on State. -/
inductive Fault where
  /-- Raised by no command; kept so that the three outcomes stay apart. Safe. -/
  | none
  deriving DecidableEq, Repr

/-- Refusals of the model. -/
inductive Refusal where
  /-- A command whose meaning is not written; raised by Machine/Dispatch.lean alone. Safe: a run ends. -/
  | notModelled (mnemonic : String)
  deriving DecidableEq, Repr

/-! ### Attributes of a counted occurrence (R560, R561, R563) -/

/-- Privilege levels (R37). -/
inductive Priv where
  | owner | realm | observer
  deriving DecidableEq, Repr

/-- The master of an occurrence (R563). -/
inductive Master where
  | slice (n : Nat)
  | steward (n : Nat)
  | host
  | trowel (c : Nat)
  deriving DecidableEq, Repr

/-- What an occurrence carries for the realm filters (R560). -/
structure Attr where
  realm : Option Nat := none
  tc : Option Nat := none
  master : Option Master := none
  priv : Option Priv := none
  addr : Option Nat := none
  deriving DecidableEq, Repr

/-! ### Packets -/

/-- A packet: its ticket (R96) and its bytes. -/
structure Pkt where
  ticket : BitVec 1024
  data : List Byte
  deriving DecidableEq, Repr

/-! ### Host attachment (Host Attachment, Realms and Register Conventions) -/

/-- Where the endpoint stands (R548, R549). -/
inductive Endpoint where
  | inReset | training | ready
  deriving DecidableEq, Repr

/-- What a command ring's serving thread has in hand (R61, R259, R593, R595): a descriptor as read, with its host
address. -/
inductive RingRun where
  /-- No descriptor in hand. -/
  | idle
  /-- A command that executes, or waits to: for a host access (R595), for the staged coat (R593) or for a steward thread
  to leave it (R119). `binds` are the channel bindings of its image. -/
  | waiting (addr : Nat) (desc : List Byte) (binds : List BindDecl)
  /-- An accepted RECOAT that completes at D (R111). -/
  | recoat (addr : Nat) (desc : List Byte)
  /-- A TABLE_OP that completes once lookups see its change (R245, R259). -/
  | route (addr : Nat) (desc : List Byte)
  /-- Executed; its write-backs wait for Bus Master Enable (R595). -/
  | writeback (writes : List (Nat × List Byte))
  deriving DecidableEq, Repr

/-- A command ring's run-time state: the command in hand and the coalescing count (R63). -/
structure RingSt where
  run : RingRun
  sinceMsg : Nat
  firstAt : Option Nat
  deriving DecidableEq, Repr

/-- Host side of the module, and the host memory it reads and writes. -/
structure HostSt where
  /-- Host memory by byte address. -/
  mem : Sparse Byte
  /-- VFs enabled in the SR-IOV capability (R30). -/
  numVfs : Nat
  /-- Bit n: Bus Master Enable of function n (R595). -/
  busMaster : Nat
  /-- Bit n: MSI-X enable and function mask of function n (R45, PCIe base specification). -/
  msixEnable : Nat
  msixFnMask : Nat
  /-- MSI-X table by function and vector: message address (default 0), and data with vector control, whose
  mask bit 32 is 1 after reset (PCIe base specification). -/
  msixAddr : Sparse Word
  msixCtl : Sparse Word
  /-- Pending bits by function and vector. -/
  msixPending : Sparse Bool
  /-- Held half of each function: offset and value (R36). -/
  held : Sparse (Option (Nat × Word))
  /-- Latched half of each function: offset and value (R36). -/
  latched : Sparse (Option (Nat × Word))
  endpoint : Endpoint
  /-- Rings by function and number. -/
  rings : Sparse RingSt
  /-- Posted and uncompleted descriptors of each function, oldest first: ring and slot index (FENCE, R61). -/
  posted : Sparse (List (Nat × Nat))
  /-- When the operation of a window that is BUSY ends, by register and instance (R310). -/
  busyTill : Sparse Nat
  deriving DecidableEq, Repr

/-! ### Counters (Counters and the Health Report) -/

structure CounterSt where
  /-- Event counters (R556). -/
  events : Sparse Nat
  /-- Object counters by event and object index. -/
  objects : Sparse Nat
  /-- Realm banks by realm and event (R562). -/
  banks : Sparse Nat
  /-- Program counters fed by CNTA: packets and bytes (R147). -/
  progPackets : Sparse Nat
  progBytes : Sparse Nat
  /-- Event counts at the last health report, for the interval fields (R566). -/
  reportBase : Sparse Nat
  /-- Health reports are running: a coat has become active since the start (R566). -/
  reporting : Bool
  /-- Time of the next report, in Varton ns. -/
  reportDue : Nat
  /-- The Lath's store of 64 reports (R568). -/
  lathStore : Sparse (List Byte)
  /-- The decision-divergence part of the lead's last report, which a follower copies (R567). -/
  leadPart : List Byte
  deriving DecidableEq, Repr

/-! ### Coats (Slices, Threads and Dispatch; Parse Graph) -/

/-- One coat slot's own contents (R108, R117, R118, R178). -/
structure Coat where
  /-- Packet code by slice and word address. -/
  code : Sparse (BitVec 32)
  /-- Words of packet code whose parity is wrong. -/
  codeBad : Sparse Bool
  /-- Steward code by steward core (4 × die + core) and word address. -/
  steward : Sparse (BitVec 32)
  stewardBad : Sparse Bool
  /-- The code master's copy of the packet code (R507). -/
  master : Sparse (BitVec 32)
  ingressEntry : Nat
  egressEntry : Nat
  /-- 0xFFFF_FFFF for none. -/
  faultEntry : Nat
  /-- Start words of the 128 steward threads; 0xFFFF_FFFF leaves one unstarted. -/
  starts : Sparse Nat
  /-- Channel bindings (R92). -/
  binds : List BindDecl
  /-- Classification region by 64-bit word number (R179). -/
  region : Sparse Word
  /-- SHA-256 digest of the image that made the coat (R386). -/
  digest : Nat
  deriving DecidableEq, Repr

/-- An access that waits (R593): for D, a ring's command, that of a ring that has stopped (R38), a BAR2 access, an
XRD; behind a BAR2 write, a host access to the PF's BARs; and an XWR, for D, for a held stack (R454) or behind an
earlier XWR of its thread (R174). -/
inductive StagedWait where
  | ring (fn k : Nat)
  | orphan (fn : Nat) (desc : List Byte) (binds : List BindDecl)
  | bar2 (fn offset : Nat) (width : Width) (value : Word)
  | bar2Read (offset : Nat) (width : Width)
  | bar4Read (offset : Nat) (width : Width)
  | hostWrite (offset : Nat) (width : Width) (value : Word)
  | hostRead (offset : Nat) (width : Width)
  | xwr (t : Tid) (addr : Nat) (value : Word)
  | xrd (req : Nat)
  deriving DecidableEq, Repr

/-! ### Threads and channels -/

/-- A packet dispatched to a slice (R80): its side, its source or destination, sequence number and coat. -/
structure Job where
  uid : Nat
  side : Side
  obj : Nat
  seq : Nat
  slot : Nat
  gen : Nat
  pkt : Pkt
  /-- The parse record once the walk has ended (R189, R192). -/
  record : Option (List Byte)
  /-- Length when a thread first took the packet on this side (R142). -/
  startLen : Nat
  /-- Varton-ns time at which a thread took the packet, and the period read then (R98, HN_DISP_CTRL). -/
  takenAt : Nat
  watchdogUs : Nat
  /-- PMAT, MTR and MIRR requests issued (R151). -/
  pmats : Nat
  mtrs : Nat
  mirrs : Nat
  /-- In the fault handler, and the fault code it was given (R100). -/
  handler : Bool
  faultCode : Nat
  /-- Mirror copies made, in order (R107). -/
  copies : List Pkt
  /-- Number of the shadow copy this is, when it is one (R508). -/
  shadow : Option Nat
  /-- Number of the shadow copy that runs beside this packet (R508). -/
  twinShadow : Option Nat
  deriving DecidableEq, Repr

/-- What a request asks of its unit (R147, R169). `over`: beyond the packet's limit (R151). -/
inductive ReqKind where
  | lkup (seq : Nat) (mdata : Word) (key : List (BitVec 4)) (slot : Nat)
  | asrch (profile : Nat) (key : List (BitVec 4)) (slot : Nat)
  | pmat (set start : Nat) (data : List Byte) (slot : Nat) (past : Bool)
  | mtr (meter bytes : Nat) (aware : Bool) (colour : Nat) (k : Nat) (past : Bool)
  | xrd (addr : Nat)
  deriving DecidableEq, Repr

/-- A request sent to a unit, named by `id` in its reply command. -/
structure Req where
  id : Nat
  tid : Tid
  ch : Nat
  /-- The requesting packet's uid; 0 for a steward thread. -/
  uid : Nat
  /-- Attributes of the requesting packet or thread (R560). -/
  attr : Attr
  kind : ReqKind
  deriving DecidableEq, Repr

/-- Why a thread takes no issue slot (R83, R93, R94, R171). -/
inductive Blocked where
  | none
  | recv (ch d : Nat)
  | request (ch : Nat) (kind : ReqKind)
  | send (ch : Nat) (w0 w1 : Word)
  | wevt (d : Nat) (mask : Word)
  deriving DecidableEq, Repr

/-- A steward thread's run state (R104, R177). -/
inductive StewardRun where
  | unstarted | running | stopped
  deriving DecidableEq, Repr

/-- A thread's state (R113, R85, R90). -/
structure Thread where
  regs : Vector Word 32
  preds : BitVec 8
  /-- K: nibble n in bits [4n+3:4n]. -/
  key : BitVec 640
  kpos : Nat
  pc : Nat
  /-- The word after a CST, at its address, as it stood before the store, and whether its parity was wrong
  (R166). -/
  oldNext : Option (Nat × BitVec 32 × Bool)
  /-- Word address and word of the instruction issued last (R99). -/
  instr : Nat × BitVec 32
  blocked : Blocked
  /-- Packet threads: the packet held. -/
  job : Option Job
  /-- Steward threads: run state, held slot, pending event bits. -/
  run : StewardRun
  held : Option Nat
  events : Word
  deriving DecidableEq, Repr

/-- One channel entry: two words, and the packet whose request it answers (0: none, or a SEND). -/
structure ChanEntry where
  w0 : Word
  w1 : Word
  uid : Nat
  deriving DecidableEq, Repr

/-- A channel (R92 to R94): entries oldest first, reserved entries by request id, threads blocked on a
read and threads held on a full channel, first blocked first. -/
structure Chan where
  entries : List ChanEntry
  reserved : List Nat
  readers : List Nat
  held : List Nat
  deriving DecidableEq, Repr

/-! ### Slices, dispatch and the reorder unit -/

/-- A slice (R77, R79, R100). -/
structure SliceSt where
  queue : List Job
  /-- Faulted packets waiting for their handlers, first faulted first. -/
  handlers : List Job
  /-- Core at which the rotation of R79 stands. -/
  rotate : Nat
  deriving DecidableEq, Repr

/-- How a packet was retired (R106): a forwarded packet or a drop, and its mirror copies. -/
structure Retired where
  seq : Nat
  out : Option Pkt
  copies : List Pkt
  deriving DecidableEq, Repr

/-- A source or destination at the dispatcher and the reorder unit (R67, R76, R78, R106). -/
structure ObjSt where
  pointer : Nat
  nextSeq : Nat
  nextRelease : Nat
  inflight : Nat
  retired : List Retired
  deriving DecidableEq, Repr

/-- Admission (R71 to R73). -/
structure AdmSt where
  /-- Epochs that have ended. -/
  epoch : Nat
  shedding : Bool
  /-- Consecutive epochs closing at or below SHED_OFF. -/
  calm : Nat
  /-- Highest backlog seen in this epoch. -/
  peak : Nat
  /-- Bytes the dispatcher took this epoch. -/
  taken : Nat
  /-- Arrival bytes of this epoch, quotas and bytes admitted, by class 0 to 3. -/
  arrived : List Nat
  quota : List Nat
  used : List Nat
  deriving DecidableEq, Repr

/-- Henig's forwarding engine. -/
structure HenigSt where
  threads : Sparse Thread
  /-- Local memory by core and byte address. -/
  lmem : Sparse Byte
  chans : Sparse Chan
  reqs : List Req
  nextReq : Nat
  nextUid : Nat
  /-- Table operations each packet has used, by uid (R151). -/
  opsUsed : Sparse Nat
  slices : Sparse SliceSt
  /-- The 16 positions of the active list (R75), and the spare. -/
  active : List (Option Nat)
  spare : Option Nat
  objs : Sparse ObjSt
  adm : AdmSt
  /-- Frames that passed the MAC, by source, oldest first (R17 step 1). -/
  rxQueue : Sparse (List Pkt)
  /-- Dispatch buffer: frames by source with their admission class, oldest first. -/
  dispatchBuf : List (Nat × Nat × Pkt)
  /-- Packets returned from Varton for the egress dispatcher, by destination, oldest first. -/
  egressWait : List (Nat × Pkt)
  /-- Packets released by the reorder unit towards Varton (R17 step 6), oldest first. -/
  dieLink : List Pkt
  /-- Frames released towards each MAC port or FlexE client, oldest first. -/
  macQueue : Sparse (List Pkt)
  /-- Fault records by die and index (R103). -/
  faultRecs : Sparse (List Byte)
  /-- Shadow copies (R508): MTR replies of the real packet, endings with their CRC (true: the copy), and the
  dispatches left before the next copy. -/
  shadowMtr : Sparse (List Word)
  shadowEnds : List (Nat × Bool × Nat)
  nextShadow : Nat
  shadowCount : Nat
  deriving DecidableEq, Repr

/-- The coat slots and the recoat (R108 to R111, R593). -/
structure CoatSt where
  slotA : Coat
  slotB : Coat
  /-- Waiting accesses, in arrival order. -/
  waits : List StagedWait
  /-- The ring whose RECOAT runs. -/
  recoatBy : Option (Nat × Nat)
  deriving DecidableEq, Repr

/-! ### The lookup complex -/

/-- An INDEX or HASH entry (R238). -/
structure Entry where
  table : Nat
  key : List (BitVec 4)
  data : Word
  ts : Nat
  coat : Nat
  learned : Bool
  deriving DecidableEq, Repr

/-- A route (R254). -/
structure Route where
  table : Nat
  vrf : Nat
  pfx : Nat
  plen : Nat
  data : Word
  ts : Nat
  coat : Nat
  deriving DecidableEq, Repr

/-- A queued route change (R259) or VRF move (R260). A change carries its descriptor, and the ring that waits for it; a
move, the group that the VRF leaves. -/
inductive RouteJob where
  | op (waiter : Option (Nat × Nat)) (fn : Nat) (desc : List Byte)
  | vrf (family vrf from_ : Nat)
  deriving DecidableEq, Repr

/-- A write in a bank's update queue: index, entry, and the ring whose ASSOC_WRITE waits for it (R219, R245). -/
structure AssocWrite where
  index : Nat
  entry : BitVec 512
  ring : Option (Nat × Nat)
  deriving DecidableEq, Repr

/-- A write of an associative entry that its path holds, having found an update queue full (R219): address, entry, and
ring as in `AssocWrite`. -/
structure AssocHeld where
  addr : Nat
  entry : BitVec 512
  ring : Option (Nat × Nat)
  deriving DecidableEq, Repr

structure LookupSt where
  /-- Table descriptors: words 0 to 2 of each (R223). -/
  tdesc : Sparse Word
  /-- Entries by home and first slot. -/
  slots : Sparse (Option Entry)
  /-- Routes by unit. -/
  routes : Sparse (Option Route)
  /-- Route units that a direct stage leads to, by replica, family and VRF group (R256, R258). -/
  stages : Sparse (List Nat)
  /-- Associative entries as committed, which is the entry master (R500), and as the banks hold them (R219). -/
  assoc : Sparse (BitVec 512)
  assocBank : Sparse (BitVec 512)
  /-- Update queue of each bank, the writes held before the queues, and the time of each bank's last write (R219,
  R220). -/
  updates : Sparse (List AssocWrite)
  assocHeld : List AssocHeld
  lastUpdate : Sparse (Option Nat)
  /-- Bytes held for an associative entry: its address, then byte number and byte (R237). -/
  heldEntry : Option (Nat × List (Nat × Byte))
  learnQ : List LearnEv
  /-- Compare-and-deletes on their way: table, key and the TS that the sweeper read (R265). -/
  sweeps : List (Nat × List (BitVec 4) × Nat)
  routeQ : List RouteJob
  /-- Time of the next ageing tick, in ns. -/
  tickDue : Nat
  deriving DecidableEq, Repr

/-! ### Buffers (Buffer Pools and the Assay) -/

/-- A buffer that is out (R283, R294): its owner, whether it came from the reserve, when and by which
requester port it was taken. `shares` copies hold it (R279); `leaving` of them have been sent and wait for
their last byte to go (R278). -/
structure Buf where
  owner : Nat
  reserve : Bool
  allocUs : Nat
  port : Nat
  stale : Bool
  shares : Nat
  leaving : Nat
  deriving DecidableEq, Repr

/-- A decided buffer request that its requester port has yet to use: the handle, or none when refused. -/
structure Decided where
  port : Nat
  owner : Nat
  len : Nat
  handle : Option Nat
  deriving DecidableEq, Repr

/-- An owner's published assay results (R297). -/
structure AssayLine where
  bins : List Nat
  oldest : Nat
  handle : Nat
  leakNow : Bool
  deriving DecidableEq, Repr

structure BufferSt where
  /-- Buffers out, by handle (R277). -/
  bufs : Sparse (Option Buf)
  /-- Rotation pointer of each pool (R288). -/
  rotate : Sparse Nat
  decided : List Decided
  /-- The running pass: when it began, the handle that it visits next, HIST_BASE as taken at its start, bins by
  8 × owner + bin, oldest age and handle by owner (R294, R295). -/
  passAt : Nat
  cursor : Nat
  base : Nat
  bins : Sparse Nat
  oldest : Sparse (Option (Nat × Nat))
  published : Sparse (Option AssayLine)
  deriving DecidableEq, Repr

/-! ### Queues, scheduling, shaping, policing -/

/-- A packet or copy in a queue: its descriptor (R276, R290). -/
structure Queued where
  pkt : Pkt
  enqUs : Nat
  handle : Nat
  /-- Module that sent it (R401). -/
  src : Nat
  deriving DecidableEq, Repr

/-- A meter: its descriptor, buckets C and E (or P), the time of the last refill and the refill remainders in
10⁻⁶ byte (R306). -/
structure Meter where
  d0 : Word
  d1 : Word
  c : Nat
  e : Nat
  last : Nat
  remC : Nat
  remE : Nat
  deriving DecidableEq, Repr

/-- Deficit and turn of a scheduling element (R321). -/
structure ElemSt where
  dc : Nat
  newTurn : Bool
  deriving DecidableEq, Repr

/-- A shaper entry: TAT in 2⁻¹⁶ ns, and the slot boundary at which the wheel releases it (R326, R327). -/
structure ShaperSt where
  tat : Nat
  wheel : Option Nat
  deriving DecidableEq, Repr

/-- VOQ admission (R313 to R315): as AdmSt, over eight classes; `sent` is D. -/
structure QAdmSt where
  epoch : Nat
  shedding : Bool
  peak : Nat
  calm : Nat
  sent : Nat
  arrived : List Nat
  quota : List Nat
  used : List Nat
  deriving DecidableEq, Repr

structure QueueSt where
  voqs : Sparse (List Queued)
  eqs : Sparse (List Queued)
  meters : Sparse Meter
  adm : QAdmSt
  elems : Sparse ElemSt
  /-- Round of a parent and priority, in order; and the child its round pointer names. -/
  rounds : Sparse (Option (List Nat))
  ptrs : Sparse (Option Nat)
  shapers : Sparse ShaperSt
  /-- Last level-0 slot boundary at which the wheel released entries. -/
  boundary : Nat
  /-- End of a draining destination's time (R330), and a power-up asked for meanwhile. -/
  drainEnd : Sparse (Option Nat)
  upAfter : Sparse Bool
  /-- Since when the frame-age sweep has not examined the head of each non-empty queue, by object index (R292). -/
  ageSeen : Sparse (Option Nat)
  deriving DecidableEq, Repr

/-! ### Fabric -/

/-- A cell (R333). -/
structure Cell where
  hdr : BitVec 128
  payload : List Byte
  deriving DecidableEq, Repr

/-- A cell in the reorder store: its arrival, and whether its link carries 64 ticket bytes (R342). -/
structure RxCell where
  cell : Cell
  arrived : Nat
  short : Bool
  deriving DecidableEq, Repr

/-- A stream that reaches this module (R351). -/
structure RxStream where
  expect : Nat
  stored : List RxCell
  deriving DecidableEq, Repr

/-- A packet in reassembly (R354). -/
structure Partial where
  tc : Nat
  dest : Nat
  plen : Nat
  short : Bool
  handle : Nat
  bytes : List Byte
  deriving DecidableEq, Repr

/-- Reassembly of a stream: idle; discarding until the next FIRST or ONLY cell, `group` saying that the cells are a
group's copy and `settled` that their grant has been settled; or in a packet. -/
inductive Reasm where
  | idle
  | skip (group settled : Bool)
  | part (p : Partial)
  deriving DecidableEq, Repr

/-- A granted token that is open (R357); an expired one no longer counts in G, and still names the packet that its
module may send under it. -/
structure Token where
  token : Nat
  module : Nat
  cells : Nat
  granted : Nat
  expired : Bool
  deriving DecidableEq, Repr

/-- A grant arbiter (R356): its pointer, G, the waiting requests (module and cells) and the open tokens. -/
structure Arb where
  ptr : Nat
  g : Nat
  waiting : List (Nat × Nat)
  tokens : List Token
  nextToken : Nat
  deriving DecidableEq, Repr

/-- A class-7 VOQ's request (R355, R357). -/
inductive ExpReq where
  | idle | requested | granted
  deriving DecidableEq, Repr

/-- A residue entry (R362): one packet and the targets it still owes. -/
structure Residue where
  group : Nat
  q : Queued
  owed : List Nat
  made : Nat
  deriving DecidableEq, Repr

/-- What waits for a lane, in the transmitter's order (R337, R348): control messages with the module addressed, relayed
control cells, express cells, relayed cells and bulk cells, each oldest first. -/
structure LaneTx where
  control : List (Nat × Word)
  relayedCtl : List Cell
  express : List Cell
  relayed : List Cell
  bulk : List Cell
  deriving DecidableEq, Repr

structure FabricSt where
  /-- Spray pointer by receiving module and context: 0 bulk, 1 express, 2 relayed (R346). -/
  spray : Sparse (Option Nat)
  /-- Next CSEQ by receiving module and context (R345). -/
  cseq : Sparse Nat
  /-- Streams by 2 × sending module + context. -/
  rx : Sparse RxStream
  reasm : Sparse Reasm
  /-- System destinations whose last flow-control message was XOFF, and local destinations for which this
  module has sent XOFF (R349, R350). -/
  xoffHeard : Sparse Bool
  xoffSent : Sparse Bool
  arbs : Sparse Arb
  /-- Requests by system destination. -/
  reqs : Sparse ExpReq
  /-- Retry lists of the sending and the receiving side, in order of creation. -/
  retryTx : List Residue
  retryRx : List Residue
  /-- Candidates counted by session (R364). -/
  sessions : Sparse Nat
  /-- Cells on the crossbar, oldest first. -/
  xbar : List Cell
  /-- INFO of the partner's last HELLO, by lane. -/
  hello : Sparse Nat
  /-- What waits for each lane. -/
  tx : Sparse LaneTx
  deriving DecidableEq, Repr

/-! ### Twin operation -/

/-- A packet held for in-order delivery (R385). -/
structure Held where
  rseq : Nat
  q : Queued
  since : Nat
  deriving DecidableEq, Repr

/-- A protected stream (R384, R385): descriptor, recovery state, history (index 0 is REC_SEQ), the time a
packet last passed, held packets in sequence order, and the last sequence released in order. -/
structure Stream where
  desc : Word
  recSeq : Nat
  takeAny : Bool
  nextSeq : Nat
  history : List Bool
  lastPass : Nat
  held : List Held
  released : Option Nat
  deriving DecidableEq, Repr

/-- A record of the lead's compare store (R390). -/
structure Digest where
  own : Bool
  stream : Nat
  rseq : Nat
  digest : BitVec 32
  since : Nat
  deriving DecidableEq, Repr

/-- What is sent to the twin (R368, R378 to R380, R386, R389, R391). -/
inductive TwinMsg where
  | heartbeat (lane epoch : Nat) (suspect : Bool)
  | change (rec : ChangeRec)
  | refresh (table : Nat) (key : List (BitVec 4))
  | learn (ev : LearnEv)
  | strict (buckets : List (Nat × Nat))
  | digest (stream rseq : Nat) (digest : BitVec 32)
  | anneal (item : AnnealItem)
  | coat (epoch generation : Nat) (digest : BitVec 256)
  | suspect (on : Bool)
  | exchange
  | report (bytes : List Byte)
  deriving DecidableEq, Repr

structure TwinSt where
  /-- Last epoch heard from the twin, and the time of its last heartbeat. -/
  heard : Nat
  lastBeat : Nat
  seasoned : Bool
  /-- When FORM_MS ends, after EN became 1. -/
  formDue : Option Nat
  streams : Sparse Stream
  /-- The lead's change number; change records flow to the follower (R386, R387). -/
  change : Nat
  sending : Bool
  /-- Highest change number applied, by table and key. -/
  applied : List (Nat × List (BitVec 4) × Nat)
  digests : List Digest
  /-- Times of divergences since the count restarted (R391). -/
  divs : List Nat
  /-- Divergences since the pair formed, and the last one: STREAM, RSEQ, the lead's digest, the follower's, and
  the PTP time (R566). -/
  divTotal : Nat
  lastDiv : Option (Nat × Nat × BitVec 32 × BitVec 32 × Nat)
  /-- When the anneal copy was complete, and when a divergence last came (R386). -/
  copied : Nat
  lastDivAt : Nat
  /-- This follower has lost its lead and waits for CMD = TAKE (R374). -/
  lost : Bool
  /-- Messages that wait for a twin lane, oldest first (R368). -/
  tx : List TwinMsg
  /-- The twin's coat digest, as last heard, and when a coat mismatch was found that still stands (R386, R513). -/
  twinDigest : Option Nat
  mismatch : Option Nat
  deriving DecidableEq, Repr

/-! ### Fresco -/

/-- A capture record in a segment (R401): its bytes, session and capture time. -/
structure CapRec where
  bytes : List Byte
  session : Nat
  time : Nat
  deriving DecidableEq, Repr

/-- BREAK_INFO of a chain break record (R422). -/
structure BreakInfo where
  reason : Nat
  lastSeq : Nat
  lastTime : Nat
  lastSealed : Nat
  restart : Nat
  deriving DecidableEq, Repr

/-- A segment (R394, R398): what its header says and its records. `drops`, `prev`, `flags` and `digest` are set
when it is sealed. `buffer` is its segment buffer in staging; `readAs` is the digest of its bytes on the target
where these are not those that were sealed (R456). -/
structure Seg where
  module : Nat
  seq : Nat
  ringId : Nat
  records : List CapRec
  used : Nat
  drops : Nat
  flags : Nat
  prev : Nat
  brk : Option BreakInfo
  firstAt : Nat
  buffer : Nat
  digest : Nat
  readAs : Option Nat
  deriving DecidableEq, Repr

/-- An NVMe Write that has not completed: whether it is a retry, and when it was sent (R414). -/
structure NvmeOpen where
  part : NvmePart
  retried : Bool
  since : Nat
  deriving DecidableEq, Repr

/-- How far the writing of a sealed segment is (R413, R415): waiting for a target; on NVMe, the commands that have not
completed; on RoCE, the first PSN and the packets acknowledged; or completed. -/
inductive SegStage where
  | waiting
  | nvme (cmds : List NvmeOpen)
  | roce (psn acked : Nat)
  | done
  deriving DecidableEq, Repr

/-- A sealed segment that is not yet durable. -/
structure SealedSeg where
  seg : Seg
  target : Nat
  slot : Nat
  stage : SegStage
  deriving DecidableEq, Repr

/-- A directory entry (R423). -/
structure DirEntry where
  seq : Nat
  slot : Nat
  target : Nat
  durable : Bool
  brk : Bool
  supply : Bool
  firstTime : Nat
  lastTime : Nat
  deriving DecidableEq, Repr

/-- What the Lath holds of one target (R411, R418). -/
structure TargetRec where
  ringId : Nat
  kind : Nat
  nsid : Nat
  firstSlot : Nat
  slots : Nat
  next : Nat
  bytes : Nat
  deriving DecidableEq, Repr

/-- The Lath's capture record (R418); `atSeal` says that it was written at a seal. -/
structure CaptureRec where
  ringId : Nat
  durable : Nat
  durableDigest : Nat
  lastSealed : Nat
  sealedDigest : Nat
  targets : List (Nat × TargetRec)
  atSeal : Bool
  deriving DecidableEq, Repr

/-- A RoCE target's connection (R415, R417): next PSN, retransmissions without progress, time of the last
transmission. -/
structure RoceSt where
  nextPsn : Nat
  retries : Nat
  sentAt : Nat
  deriving DecidableEq, Repr

structure FrescoSt where
  ringId : Nat
  nextSeq : Nat
  /-- Last sealed sequence and its digest. -/
  lastSealed : Nat
  sealedDigest : Nat
  opened : Option Seg
  segs : List SealedSeg
  /-- Losses on the egress queues under port scheduler 160 since the last seal (R398 DROPS). -/
  drops : Nat
  directory : Sparse (Option DirEntry)
  /-- Segments on the targets, by target and slot. -/
  stored : Sparse (Option Seg)
  roce : Sparse RoceSt
  /-- Percentage Used as last read from each NVMe target. -/
  wearPct : Sparse Nat
  /-- The capture record in the Lath's SRAM, and the one in its flash. -/
  sram : Option CaptureRec
  flash : Option CaptureRec
  /-- Fresco has made its comparison since the last start; the capture record that calls for a chain break record, which
  is still to be written (R421). -/
  started : Bool
  due : Option CaptureRec
  /-- Last CAP_TIME of the ring since its last chain break record (R402). -/
  lastCap : Nat
  /-- t0 of the running seal (R419). -/
  sealAt : Option Nat
  deriving DecidableEq, Repr

/-! ### Trowel -/

/-- A MOVE begun and not complete (R433): its ranges, whether it is counted, and its instruction's address. -/
structure Move where
  src : Nat
  dst : Nat
  len : Nat
  counted : Bool
  at_ : Nat
  /-- Requests served, and that a request could not reach host memory (R430, R433). -/
  served : Nat
  failed : Bool
  deriving DecidableEq, Repr

/-- What a channel waits for (R437). -/
inductive WaitOn where
  | timer (t : Nat)
  | signal (c : Nat)
  deriving DecidableEq, Repr

/-- A channel's state beyond its registers (R426, R431, R432, R436, R439): program counter, open LOOP, moves in order
begun, pending signals, what it waits for or is armed on, and END with HALT, or a fault, waiting for its moves. -/
structure TwChan where
  pc : Nat
  openLoop : Option Nat
  moves : List Move
  signals : Nat
  wait : Option WaitOn
  halting : Bool
  faulting : Bool
  deriving DecidableEq, Repr

structure TrowelSt where
  chans : Sparse TwChan
  /-- When each timer next ticks, in ns. -/
  timers : Sparse Nat
  /-- Destinations in CSR space or the staged coat whose bytes a KILL has made undefined: address and length. They
  are written, and the list emptied, before the command that killed ends (R443). -/
  lost : List (Nat × Nat)
  /-- The channel whose turn it is, and the requests of it served in this turn (R444). -/
  turn : Nat
  inTurn : Nat
  deriving DecidableEq, Repr

/-! ### HBM controllers and training -/

/-- A stack's training record in flash (R459): stack identity, Tcase at training, lanes repaired, settings by
pseudo-channel, and whether its CRC is good. -/
structure TrainRec where
  identity : Nat
  tcase : Int
  lanes : List Nat
  trims : List (Nat × PcTrim)
  crcGood : Bool
  deriving DecidableEq, Repr

/-- A channel retirement under way (R465). -/
structure Migration where
  channel : Nat
  yieldTo : Nat
  deriving DecidableEq, Repr

/-- The repair of a bank (R463): the row replaced, and whether full training has made it hard. -/
structure Repair where
  row : Nat
  hard : Bool
  deriving DecidableEq, Repr

/-- The settings of a pseudo-channel before its training. -/
def PcTrim.zero : PcTrim := ⟨[], [], 0, 0⟩

structure HbmSt where
  /-- Stack contents by stack and offset, as system spaces 0x01 to 0x03 show them. -/
  mem : Sparse Byte
  /-- Blocks marked uncorrectable, by stack and block number (R456). -/
  bad : Sparse Bool
  /-- Time of a stack's last request, and of its scrub pass's start (R453, R455). -/
  lastReq : Sparse Nat
  scrubStart : Sparse Nat
  /-- Writes of HBM_REQUEST that are pending, by stack and bank, oldest first: row, and whether the bank is in in-order
  mode until it completes (R450). -/
  writes : Sparse (List (Nat × Bool))
  /-- Time of each bank's last refresh (R452). -/
  refreshed : Sparse Nat
  /-- Times of corrected errors by stack, bank and row (R463). -/
  rowErrs : Sparse (List Nat)
  /-- Repair candidates: stack, bank, row; and the repair that uses a bank's resource. -/
  candidates : List (Nat × Nat × Nat)
  repaired : Sparse (Option Repair)
  records : Sparse (Option TrainRec)
  /-- The training firmware stands in steward core 3 of each die, and has begun to train a stack (R458, R461). -/
  firmware : Bool
  begun : Sparse Bool
  /-- Lanes repaired, by stack; settings by stack and pseudo-channel; compare counts by DQ bit, by stack (R458, R459). -/
  lanes : Sparse (List Nat)
  trims : Sparse PcTrim
  errors : Sparse (List (Nat × Nat))
  /-- Time of each strobe's last recheck, by stack and pseudo-channel (R462). -/
  tracked : Sparse Nat
  migrating : Sparse (Option Migration)
  /-- Yield region of a stack with a retired channel (R464). -/
  yielded : Sparse (Option Nat)
  /-- Requests that wait for a held stack, oldest first, with their stack (R454). -/
  waiting : List (Nat × HbmReq)
  /-- Corrected and uncorrectable errors by stack since the dies left reset (R566). -/
  corrected : Sparse Nat
  uncorrected : Sparse Nat
  deriving DecidableEq, Repr

/-! ### Line ports, MACsec and time -/

/-- Outcomes that MACsec frames are counted under (R478): those of IEEE 802.1AE. -/
inductive SecOutcome where
  | untaggedIn | noTag | badTag | unknownSci | noSci | delayed | late | unchecked | invalid | notValid | ok
  | unused | notUsing | untaggedOut | protectedOut | encryptedOut
  deriving DecidableEq, Repr

/-- How a transmitted frame is protected: its SA index, its packet number, and whether it is encrypted (R476). -/
structure SecTx where
  sa : Nat
  pn : Nat
  encrypted : Bool
  deriving DecidableEq, Repr

structure PortsSt where
  /-- SA descriptors, KEY included, by index (R477); and the SAs whose PN warning was given (R479). -/
  sas : Sparse (BitVec 512)
  warned : Sparse Bool
  /-- MACsec counts by SA, or 1,152 + port, and outcome (R478). -/
  sec : Sparse Nat
  /-- Timestamp queues by port: tag and time, oldest first (R486). -/
  tsQ : Sparse (List (Nat × Nat))
  /-- The last 16 steps: the time base at which each was applied, and its amount (R481). -/
  steps : List (Nat × Int)
  /-- PPS edges in a row with an error of at most 100 ns (R482). -/
  ppsRun : Nat
  /-- Time base at which the PPS output falls (R487). -/
  ppsFall : Nat
  /-- Lanes whose initial receive adaptation is complete (R489), and each lane's equaliser settings (R490). -/
  adapted : Sparse Bool
  equaliser : Sparse Int
  /-- When each lane's last adaptation cycle ended (R490). -/
  adaptedAt : Sparse Nat
  deriving DecidableEq, Repr

/-! ### Service Without Stopping -/

/-- What runs for a unit (R495, R501, R503, R506). -/
inductive SvcRun where
  /-- A slice drains; the position that a spare took, with the spare. -/
  | drain (slice : Nat) (stand : Option (Nat × Nat)) (since : Nat)
  /-- A bank's spare is loaded. -/
  | bank (bank spare : Nat) (since : Nat)
  /-- A lane's reorder window after its retirement. -/
  | lane (lane : Nat) (since : Nat)
  /-- A reinstatement; `reload` says that LOAD starts again (R507). -/
  | reinstate (unit : Nat) (reload : Bool)
  deriving DecidableEq, Repr

structure SvcSt where
  runs : List SvcRun
  /-- Times of code-memory parity errors by slice (R499). -/
  parity : Sparse (List Nat)
  /-- Self-test failures by kind and unit (R392). -/
  selftests : Sparse Nat
  /-- Times of corrected errors by die, array and column; columns repaired by die and array (R504). -/
  colErrs : Sparse (List Nat)
  colUsed : Sparse Nat
  /-- When the scrub last read a column (R504). -/
  scrubbed : Sparse Nat
  deriving DecidableEq, Repr

/-! ### The Lath -/

/-- Counts of the life record (R518), less those that other state gives. -/
structure Life where
  onHours : Nat
  cycles : Nat
  vinLoss : Nat
  vinSurge : Nat
  vinLow : Nat
  vauxLoss : Nat
  thermal : Sparse Nat
  flashErase0 : Nat
  flashErase1 : Nat
  sliceRetires : Nat
  spareSlice : Nat
  columnsH : Nat
  columnsV : Nat
  hbmRepairs : Sparse Nat
  hbmRetired : Sparse Nat
  phases : Nat
  lanesRetired : Nat
  captureWear : Sparse Nat
  /-- Trainings made, of either kind (R460). -/
  trainings : Nat
  deriving DecidableEq, Repr

/-- A rule's run (R529, R530): samples since it was written, and the times of the last samples at which its
condition and its release condition did not hold. -/
structure RuleSt where
  samples : Nat
  bad : Option Nat
  relBad : Option Nat
  deriving DecidableEq, Repr

/-- A coat in the flash store (R552): the image and its channel bindings. -/
structure FlashCoat where
  image : List Byte
  binds : List BindDecl
  deriving DecidableEq, Repr

/-- A power transition, with the Lath time at which it began (R537 to R547). -/
inductive Transition where
  | start (t0 : Nat)
  | toHoldover (t0 : Nat)
  | fromHoldover (t0 : Nat)
  | toDormant (t0 : Nat)
  | dormantToHoldover (t0 : Nat)
  deriving DecidableEq, Repr

/-- Coats that a start loads (LT_BOOT.COAT). -/
inductive BootCoat where
  | none | standing | holdover | base
  deriving DecidableEq, Repr

/-- A powered-down slice (R538, R539). -/
structure SliceDown where
  since : Nat
  unpowered : Bool
  returns : Bool
  deriving DecidableEq, Repr

structure LathSt where
  vaux : Bool
  running : Bool
  /-- Rails in regulation, and whether they are being brought up (R525). -/
  rails : Nat
  raising : Bool
  transition : Option Transition
  life : Life
  /-- The life calendar as flash holds it (R520). -/
  calendar : Nat
  /-- VAUX losses that the next start counts (R524). -/
  vauxLost : Nat
  /-- Rings: life events in flash (R519), the event log in SRAM (R535). -/
  lifeRing : Sparse (List Byte)
  evlog : Sparse (List Byte)
  /-- Samples of each ADC channel since its last change, newest first (R528). -/
  history : Sparse (List Int)
  rules : Sparse RuleSt
  /-- Last sample of each source. -/
  sources : Sparse Int
  /-- Fixed protections (R533): throttle level of each stack and the time of its last step, the dies held at
  level 15, sensors at or above 110 °C since, the ceiling, and every sensor at or below 95 °C since. -/
  stackLevel : Sparse Nat
  stackStep : Sparse Nat
  dieHot : Sparse Bool
  overSince : Option Nat
  ceiling : Bool
  coolSince : Option Nat
  /-- The phase that each rail's spare stands for, and the rails that have lost a second (R505). -/
  phaseSub : Sparse (Option Nat)
  phaseLost : Sparse Bool
  /-- The coat store of the flash (R552). -/
  standing : Option FlashCoat
  holdover : Option FlashCoat
  /-- The coat that the start has loaded, and the register words that its start writes have written (R553). -/
  loaded : BootCoat
  started : List (Nat × Nat × Nat)
  /-- The standing coat of R547 is still to load into the staged slot, or stands there. -/
  standingDue : Bool
  standingStaged : Bool
  /-- The module is in Holdover: its banks 4 to 31, fabric lanes, steward cores 1 and 2, and other slices and ports
  are unpowered (R541). -/
  held : Bool
  /-- A rail has failed to start: no start until REQ is written or VIN becomes valid (R526). -/
  blocked : Bool
  /-- Slices powered down (R538): when, whether they are unpowered yet, and whether they return to service. -/
  sliceDown : Sparse (Option SliceDown)
  /-- Time of each channel's last sample. -/
  sampledAt : Sparse Nat
  /-- Rules whose assertion is to make a wake request. -/
  wakeDue : List Nat
  /-- Lath time of the last hourly write (R520). -/
  hourAt : Nat
  /-- A wake request waits for a host resume (R551). -/
  resuming : Bool
  /-- The SMBus target: the read offset (R536), and the straps ADDR[1:0] as sampled when the Lath started (R584). -/
  smbOffset : Nat
  straps : Nat
  /-- The root ports are powered, and RP0_REFCLK and RP1_REFCLK run (R575, R541). -/
  rootPower : Bool
  /-- After an overvoltage VIN is not valid until it has stood at or below 45 V for 1 s; the Lath time since which it does
  (R524). -/
  overvolt : Bool
  calmAt : Nat
  deriving DecidableEq, Repr

/-! ### Time -/

/-- The module's clocks, in ns (R594, R480, R535). -/
structure Clock where
  /-- Henig and Varton are out of reset. -/
  diesOn : Bool
  /-- Since Varton's origin. -/
  ns : Nat
  /-- Since the Lath started; and the life calendar's seconds at that moment (R518). -/
  lath : Nat
  lifeBase : Nat
  /-- Time base of R480: whole ns, and the remainder in units of 10⁻¹¹ ns. -/
  ptp : Nat
  ptpFrac : Nat
  deriving DecidableEq, Repr

/-- An NVMe Write command (R413): its namespace, its blocks, and which bytes of a segment it writes. -/
structure NvmeCmd where
  target : Nat
  nsid : Nat
  opcode : Nat
  fua : Bool
  lba : Nat
  blocks : Nat
  seq : Nat
  part : NvmePart
  deriving DecidableEq, Repr

/-- What leaves the module, in the order sent. -/
inductive Out where
  /-- A read completes towards its requester: of CSR space, or of the PF's BAR `bar`. -/
  | readData (agent : Agent) (offset : Nat) (value : Word)
  | barData (bar offset : Nat) (value : Word)
  /-- An MSI-X message. -/
  | msix (fn vector : Nat)
  /-- A cell on a fabric lane. -/
  | cell (lane : Nat) (c : Cell)
  /-- An NVMe Write command (R413). -/
  | nvme (c : NvmeCmd)
  /-- A message on a lane of the twin link. -/
  | twin (lane : Nat) (m : TwinMsg)
  /-- A frame on a port or FlexE client as its lanes carry it, with its transmit time (R476, R483 to R485). -/
  | frame (dest : Nat) (data : List Byte) (time : Nat)
  /-- The PPS output rises (R487). -/
  | pps
  /-- PM_PME, and WAKE# driven low (R550). -/
  | pmPme
  | wake
  /-- An event-log entry on the console UART (R536). -/
  | uart (entry : List Byte)
  /-- The answer to an SMBus Block Read (R536). -/
  | smbus (value : Word)
  deriving DecidableEq, Repr

/-- The module. -/
structure State where
  /-- The commands that wait, first in first out. -/
  pending : List Instr
  /-- The model's own counter of free values used (Config.freeWord). -/
  free : Nat
  out : List Out
  clk : Clock
  csr : Sparse Word
  host : HostSt
  cnt : CounterSt
  coat : CoatSt
  hn : HenigSt
  lk : LookupSt
  bm : BufferSt
  q : QueueSt
  fb : FabricSt
  tn : TwinSt
  fr : FrescoSt
  tw : TrowelSt
  hb : HbmSt
  pt : PortsSt
  sv : SvcSt
  lt : LathSt
  deriving DecidableEq, Repr

/-! ### Reset -/

/-- A coat slot with nothing in it (R553). -/
def Coat.empty : Coat where
  code := []
  codeBad := []
  steward := []
  stewardBad := []
  master := []
  ingressEntry := 0
  egressEntry := 0
  faultEntry := 0xFFFFFFFF
  starts := []
  binds := []
  region := []
  digest := 0

def HostSt.reset : HostSt where
  mem := []
  numVfs := 0
  busMaster := 0
  msixEnable := 0
  msixFnMask := 0
  msixAddr := []
  msixCtl := []
  msixPending := []
  held := []
  latched := []
  endpoint := .inReset
  rings := []
  posted := []
  busyTill := []

def CounterSt.reset : CounterSt where
  events := []
  objects := []
  banks := []
  progPackets := []
  progBytes := []
  reportBase := []
  reporting := false
  reportDue := 0
  lathStore := []
  leadPart := []

def CoatSt.reset : CoatSt where
  slotA := Coat.empty
  slotB := Coat.empty
  waits := []
  recoatBy := none

def HenigSt.reset : HenigSt where
  threads := []
  lmem := []
  chans := []
  reqs := []
  nextReq := 1
  nextUid := 1
  opsUsed := []
  slices := []
  active := List.replicate 16 none
  spare := none
  objs := []
  adm := ⟨0, false, 0, 0, 0, List.replicate 4 0, List.replicate 4 0, List.replicate 4 0⟩
  rxQueue := []
  dispatchBuf := []
  egressWait := []
  dieLink := []
  macQueue := []
  faultRecs := []
  shadowMtr := []
  shadowEnds := []
  nextShadow := 0
  shadowCount := 0

def LookupSt.reset : LookupSt where
  tdesc := []
  slots := []
  routes := []
  stages := []
  assoc := []
  assocBank := []
  updates := []
  assocHeld := []
  lastUpdate := []
  heldEntry := none
  learnQ := []
  sweeps := []
  routeQ := []
  tickDue := 0

def BufferSt.reset : BufferSt where
  bufs := []
  rotate := []
  decided := []
  passAt := 0
  cursor := 0
  base := 4
  bins := []
  oldest := []
  published := []

def QueueSt.reset : QueueSt where
  voqs := []
  eqs := []
  meters := []
  adm := ⟨0, false, 0, 0, 0, List.replicate 8 0, List.replicate 8 0, List.replicate 8 0⟩
  elems := []
  rounds := []
  ptrs := []
  shapers := []
  boundary := 0
  drainEnd := []
  upAfter := []
  ageSeen := []

def FabricSt.reset : FabricSt where
  spray := []
  cseq := []
  rx := []
  reasm := []
  xoffHeard := []
  xoffSent := []
  arbs := []
  reqs := []
  retryTx := []
  retryRx := []
  sessions := []
  xbar := []
  hello := []
  tx := []

def TwinSt.reset : TwinSt where
  heard := 0
  lastBeat := 0
  seasoned := false
  formDue := none
  streams := []
  change := 0
  sending := false
  applied := []
  digests := []
  divs := []
  divTotal := 0
  lastDiv := none
  copied := 0
  lastDivAt := 0
  lost := false
  tx := []
  twinDigest := none
  mismatch := none

def FrescoSt.reset : FrescoSt where
  ringId := 0
  nextSeq := 1
  lastSealed := 0
  sealedDigest := 0
  opened := none
  segs := []
  drops := 0
  directory := []
  stored := []
  roce := []
  wearPct := []
  sram := none
  flash := none
  started := false
  due := none
  lastCap := 0
  sealAt := none

def TrowelSt.reset : TrowelSt where
  chans := []
  timers := []
  lost := []
  turn := 0
  inTurn := 0

def HbmSt.reset : HbmSt where
  mem := []
  bad := []
  lastReq := []
  scrubStart := []
  writes := []
  refreshed := []
  rowErrs := []
  candidates := []
  repaired := []
  records := []
  firmware := false
  begun := []
  lanes := []
  trims := []
  errors := []
  tracked := []
  migrating := []
  yielded := []
  waiting := []
  corrected := []
  uncorrected := []

def PortsSt.reset : PortsSt where
  sas := []
  warned := []
  sec := []
  tsQ := []
  steps := []
  ppsRun := 0
  ppsFall := 0
  adapted := []
  equaliser := []
  adaptedAt := []

def SvcSt.reset : SvcSt where
  runs := []
  parity := []
  selftests := []
  colErrs := []
  colUsed := []
  scrubbed := []

/-- The life record of a module that has never run. -/
def Life.reset : Life where
  onHours := 0
  cycles := 0
  vinLoss := 0
  vinSurge := 0
  vinLow := 0
  vauxLoss := 0
  thermal := []
  flashErase0 := 0
  flashErase1 := 0
  sliceRetires := 0
  spareSlice := 255
  columnsH := 0
  columnsV := 0
  hbmRepairs := []
  hbmRetired := []
  phases := 0
  lanesRetired := 0
  captureWear := []
  trainings := 0

def LathSt.reset : LathSt where
  vaux := false
  running := false
  rails := 0
  raising := false
  transition := none
  life := Life.reset
  calendar := 0
  vauxLost := 0
  lifeRing := []
  evlog := []
  history := []
  rules := []
  sources := []
  stackLevel := []
  stackStep := []
  dieHot := []
  overSince := none
  ceiling := false
  coolSince := none
  phaseSub := []
  phaseLost := []
  standing := none
  holdover := none
  loaded := .none
  started := []
  standingDue := false
  standingStaged := false
  held := false
  blocked := false
  sliceDown := []
  sampledAt := []
  wakeDue := []
  hourAt := 0
  resuming := false
  smbOffset := 0
  straps := 0
  rootPower := false
  overvolt := false
  calmAt := 0

def Clock.reset : Clock := ⟨false, 0, 0, 0, 0, 0⟩

/-- The module before its supplies first rise: nothing runs, nothing is loaded, and every register reads its reset
value (State.csr lists only words that differ from theirs). -/
def State.reset : State where
  pending := []
  free := 0
  out := []
  clk := Clock.reset
  csr := []
  host := HostSt.reset
  cnt := CounterSt.reset
  coat := CoatSt.reset
  hn := HenigSt.reset
  lk := LookupSt.reset
  bm := BufferSt.reset
  q := QueueSt.reset
  fb := FabricSt.reset
  tn := TwinSt.reset
  fr := FrescoSt.reset
  tw := TrowelSt.reset
  hb := HbmSt.reset
  pt := PortsSt.reset
  sv := SvcSt.reset
  lt := LathSt.reset

end Sys2Proof.Machine
end

