-- ==== Sys2Proof/Machine/Regs.lean ====
section
/-! DEFINITION. Registers as stored: each aligned 64-bit word has one home in State.csr, an unlisted word
reads as its reset value, and every read and write of a field goes through `rd` and `wr`. -/

namespace Sys2Proof.Machine

/-- The number of a register family. -/
def Reg.code (r : Reg) : Nat := r.ctorIdx

/-- Key of word `w` of instance `i` of register `r`. -/
def regKey (r : Reg) (i w : Nat) : Nat := tripleKey r.code i w

/-- Vector of an interrupt source after reset (R46). -/
def resetRoute (s : Nat) : Nat :=
  if s < 6 ∨ (16 ≤ s ∧ s < 160) ∨ 512 ≤ s then s + 2 ^ 31 else 0

/-- Reset values that depend on the instance, or that the tables give in words, as bits to set in the
word that the plain reset values make. -/
def resetSpecial (r : Reg) (i w : Nat) : Nat :=
  match r with
  | .SY_REALM_CTRL => if i = 0 then 1 + 2 * 2 + 16 * 256 else 1 * 2 + 1 * 256
  | .SY_INT_ROUTE => resetRoute i
  | .SY_ABI_SELECT => 3 + 3 * 2 ^ 16
  | .SY_HALLMARK => 3 + 3 * 16
  | .HN_DISP_CTRL => 20 + 31 * 2 ^ 56
  | .LK_ASSOC_CFG => 16
  | .VT_POOL_POLICY => (16 * (i / 16)) * 256
  | .VT_EGR_OWNER => i
  | .VT_ASSAY => if w = 5 then 2 ^ 33 - 1 else 0
  | .FB_LINK => 6 * 4
  | .HB_RETIRE => if i = 0 then 12 * 16 else 15 * 16
  | .LT_CHAN => i
  | .LT_RULE => if w = 0 then 2 ^ 9 else 2 ^ 32
  | .PC_FILTER => if w = 2 then 2 ^ 64 - 1 else 0
  | .PC_VIEW => i
  | _ => 0

/-- Value after reset of word `w` of instance `i` of a register. -/
def resetWord (r : Reg) (i w : Nat) : Word :=
  BitVec.ofNat 64 (resetSpecial r i w +
    ((regDesc r).fields.filter (fun f => decide (f.lo / 64 = w))).foldl
      (fun a f => a + f.reset * 2 ^ (f.lo % 64)) 0)

/-- Word `w` of instance `i` of register `r`, as stored. -/
def State.word (s : State) (r : Reg) (i w : Nat) : Word := Sparse.get (resetWord r i w) s.csr (regKey r i w)

/-- Store a register word. -/
def State.setWord (s : State) (r : Reg) (i w : Nat) (v : Word) : State :=
  { s with csr := Sparse.set (resetWord r i w) s.csr (regKey r i w) v }

/-- The value of field `f` of instance `i`. -/
def State.rd (s : State) (f : FId) (i : Nat) : Nat := bitsOf (s.word f.reg i (f.lo / 64)).toNat (f.lo % 64) f.len

/-- Field `f` of instance `i` as a flag. -/
def State.on (s : State) (f : FId) (i : Nat) : Bool := s.rd f i != 0

/-- Store `v` in field `f` of instance `i`. -/
def State.wr (s : State) (f : FId) (i v : Nat) : State :=
  s.setWord f.reg i (f.lo / 64)
    (BitVec.ofNat 64 (putBits (s.word f.reg i (f.lo / 64)).toNat (f.lo % 64) f.len v))

/-- A field of more than 64 bits, which fills whole words of instance `i` (the last one from its lowest bit). -/
def State.rdWide (s : State) (f : FId) (i : Nat) : Nat :=
  (List.range ((f.len + 63) / 64)).foldl (fun a w =>
    a + bitsOf (s.word f.reg i (f.lo / 64 + w)).toNat 0 (min 64 (f.len - 64 * w)) * 2 ^ (64 * w)) 0

/-- Store a field of more than 64 bits. -/
def State.wrWide (s : State) (f : FId) (i v : Nat) : State :=
  (List.range ((f.len + 63) / 64)).foldl (fun s w =>
    let n := f.lo / 64 + w
    s.setWord f.reg i n (BitVec.ofNat 64 (putBits (s.word f.reg i n).toNat 0 (min 64 (f.len - 64 * w)) (v >>> (64 * w))))) s

/-- Put every register of a list of families back to its reset value: their words leave the list. -/
def State.resetRegs (s : State) (p : Reg → Bool) : State :=
  let codes := (allRegs.filter p).map Reg.code
  { s with csr := s.csr.filter (fun e => !(codes.contains (unpair (unpair e.1).1).1)) }

/-- The hallmark in force (R49). -/
def State.hallmark (s : State) : Nat := s.rd F.SY_HALLMARK.ACTIVE 0

end Sys2Proof.Machine
end

