-- ==== Sys2Proof/Machine/Ops.lean ====
section
/-! DEFINITION. Operations every unit uses: the ticket's fields (R96), counting an occurrence (R556 to
R563), host memory, MSI-X messages (R45 to R47), and realms and privilege (R30, R37). -/

namespace Sys2Proof.Machine

/-! ### The ticket (R96) -/

/-- Bits `lo` upward of ticket byte `b`, `len` of them. -/
def tkGet (t : BitVec 1024) (b lo len : Nat) : Nat := bitsOf t.toNat (8 * b + lo) len

/-- A ticket with one field replaced. -/
def tkPut (t : BitVec 1024) (b lo len v : Nat) : BitVec 1024 := BitVec.ofNat 1024 (putBits t.toNat (8 * b + lo) len v)

def Tk.dest (t : BitVec 1024) : Nat := tkGet t 0 0 16
def Tk.tc (t : BitVec 1024) : Nat := tkGet t 2 0 3
def Tk.colour (t : BitVec 1024) : Nat := tkGet t 2 3 2
def Tk.adm (t : BitVec 1024) : Nat := tkGet t 2 5 2
def Tk.drop (t : BitVec 1024) : Bool := tkGet t 3 0 1 != 0
def Tk.mirror (t : BitVec 1024) : Bool := tkGet t 3 1 1 != 0
def Tk.isProtected (t : BitVec 1024) : Bool := tkGet t 3 2 1 != 0
def Tk.prpHsr (t : BitVec 1024) : Bool := tkGet t 3 3 1 != 0
def Tk.source (t : BitVec 1024) : Nat := tkGet t 4 0 16
def Tk.seq (t : BitVec 1024) : Nat := tkGet t 6 0 16
def Tk.icoat (t : BitVec 1024) : Nat := tkGet t 8 0 32
def Tk.meter (t : BitVec 1024) : Nat := tkGet t 12 0 20
def Tk.useMeter (t : BitVec 1024) : Bool := tkGet t 12 20 1 != 0
def Tk.colourAware (t : BitVec 1024) : Bool := tkGet t 12 21 1 != 0
def Tk.owner (t : BitVec 1024) : Nat := tkGet t 16 0 12
def Tk.eq (t : BitVec 1024) : Nat := tkGet t 18 0 15
def Tk.stream (t : BitVec 1024) : Nat := tkGet t 20 0 16
def Tk.rseq (t : BitVec 1024) : Nat := tkGet t 22 0 16
def Tk.session (t : BitVec 1024) : Nat := tkGet t 24 0 10
def Tk.realm (t : BitVec 1024) : Nat := tkGet t 26 0 6
def Tk.length (t : BitVec 1024) : Nat := tkGet t 28 0 32
def Tk.rxTime (t : BitVec 1024) : Nat := tkGet t 32 0 64
def Tk.ecoat (t : BitVec 1024) : Nat := tkGet t 40 0 32
def Tk.eseq (t : BitVec 1024) : Nat := tkGet t 44 0 16

/-- A packet with its ticket's LENGTH as its bytes stand (R96, bytes 28–31). -/
def Pkt.withLength (p : Pkt) : Pkt := { p with ticket := tkPut p.ticket 28 0 32 p.data.length }

/-- The ticket's 128 bytes. -/
def tkBytes (t : BitVec 1024) : List Byte := leBytes 128 t.toNat

/-! ### Counting -/

/-- Does an occurrence pass realm `r`'s filter (R562)? -/
def passes (s : State) (r : Nat) (a : Attr) : Bool :=
  (match a.priv with
    | none => true
    | some .owner => bitAt (s.rd F.PC_FILTER.PRIV r) 0
    | some .realm => bitAt (s.rd F.PC_FILTER.PRIV r) 1
    | some .observer => bitAt (s.rd F.PC_FILTER.PRIV r) 2) &&
  (match a.master with
    | none => true
    | some m =>
      let id := s.rd F.PC_FILTER.MASTER_ID r
      match s.rd F.PC_FILTER.MASTER r, m with
      | 0, _ => true
      | 1, .slice n => n == id
      | 2, .steward n => n == id
      | 3, .host => true
      | 4, .trowel c => c == id
      | _, _ => false) &&
  (match a.tc with
    | none => true
    | some c => bitAt (s.rd F.PC_FILTER.TC r) c) &&
  (match a.addr with
    | none => true
    | some x => decide (s.rd F.PC_FILTER.ADDR_LO r ≤ x ∧ x ≤ s.rd F.PC_FILTER.ADDR_HI r))

/-- `n` occurrences of event `e`, for object `obj` where the event is counted per object (R556, R562). -/
def State.count (s : State) (e : Nat) (obj : Option Nat) (n : Nat) (a : Attr) : State :=
  let r := a.realm.getD 0
  { s with cnt := { s.cnt with
      events := Sparse.upd 0 s.cnt.events e (satAdd 64 · n)
      objects := match obj with
        | none => s.cnt.objects
        | some o => Sparse.upd 0 s.cnt.objects (pairKey e o) (satAdd 64 · n)
      banks := if passes s r a then Sparse.upd 0 s.cnt.banks (pairKey r e) (satAdd 64 · n)
        else s.cnt.banks } }

/-- What an occurrence tied to a packet carries (R561). -/
def Pkt.attr (p : Pkt) : Attr := { realm := some (Tk.realm p.ticket), tc := some (Tk.tc p.ticket) }

/-- Object index of an ingress source or an egress destination (R596). -/
def sideObj (side : Side) (obj : Nat) : Nat :=
  match side with
  | .ingress => obj
  | .egress => 160 + obj

/-- One occurrence that a packet is tied to. -/
def State.countPkt (s : State) (e obj : Nat) (p : Pkt) : State := s.count e (some obj) 1 p.attr

/-! ### What leaves the module, and free values -/

/-- Something leaves the module. -/
def State.emit (s : State) (o : Out) : State := { s with out := s.out ++ [o] }

/-- A free value: nothing constrains it (Config.freeWord). -/
def State.fresh (s : State) : Word × State := (Config.freeWord s.free, { s with free := s.free + 1 })

/-- `n` free bytes. -/
def State.freshBytes (s : State) (n : Nat) : List Byte × State :=
  ((List.range n).map (fun i => BitVec.ofNat 8 ((Config.freeWord (s.free + i / 8)).toNat >>> (8 * (i % 8)))),
    { s with free := s.free + (n + 7) / 8 })

/-! ### Realms and privilege -/

/-- A realm exists (R30). -/
def realmExists (s : State) (n : Nat) : Bool :=
  n == 0 || (decide (n ≤ s.host.numVfs) && s.on F.SY_REALM_CTRL.ENABLE n)

/-- The privilege of an agent's accesses (R37, R172, R536, R554). -/
def privOf (s : State) (a : Agent) : Priv :=
  match a with
  | .fn 0 => .owner
  | .fn n => if s.rd F.SY_REALM_CTRL.PRIV n = 0 then .realm else .observer
  | _ => .owner

/-- The realm an agent acts as. -/
def agentRealm (a : Agent) : Nat :=
  match a with
  | .fn n => n
  | _ => 0

/-- The master of an agent's accesses (R563). -/
def agentMaster (a : Agent) : Option Master :=
  match a with
  | .fn _ => some .host
  | .steward c => some (.steward c)
  | _ => none

/-- Bus Master Enable of a function (R595). -/
def busMaster (s : State) (fn : Nat) : Bool := bitAt s.host.busMaster fn

/-! ### Time -/

/-- Are the dies out of reset? Time of theirs runs only then (R594). -/
def diesOn (s : State) : Bool := s.clk.diesOn

/-- `n` ns pass on every clock. The time base gains `n` ns trimmed by FREQ_ADJ, in units of 0.01 ppb (R480). -/
def elapse (s : State) (n : Nat) : State :=
  if s.clk.diesOn then
    let rate : Int := 100000000000 + signed 32 (s.rd F.PT_TIME_CTRL.FREQ_ADJ 0)
    let total : Nat := s.clk.ptpFrac + n * rate.toNat
    { s with clk := { s.clk with
        ns := s.clk.ns + n
        lath := s.clk.lath + n
        ptp := s.clk.ptp + total / 100000000000
        ptpFrac := total % 100000000000 } }
  else { s with clk := { s.clk with lath := s.clk.lath + n } }

/-- An event that comes at Varton time `due` has come: the clocks have reached it. -/
def reachTime (s : State) (due : Nat) : State := elapse s (due - s.clk.ns)

/-- An event that comes at Lath time `due` has come. -/
def reachLath (s : State) (due : Nat) : State := elapse s (due - s.clk.lath)

/-- Seconds of the life calendar. -/
def lifeSeconds (s : State) : Nat := s.clk.lifeBase + s.clk.lath / 1000000000

/-! ### Host memory -/

/-- Bytes `a` to `a + n - 1` of host memory. -/
def hostBytes (s : State) (a n : Nat) : List Byte :=
  (List.range n).map (fun i => Sparse.get (0 : Byte) s.host.mem ((a + i) % 2 ^ 64))

/-- Host memory with bytes stored from `a`. -/
def hostStore (m : Sparse Byte) (a : Nat) : List Byte → Sparse Byte
  | [] => m
  | b :: bs => hostStore (Sparse.set (0 : Byte) m (a % 2 ^ 64) b) (a + 1) bs

/-- The module reads host memory for a realm (event 1,233). -/
def State.hostRead (s : State) (realm : Nat) (m : Option Master) (a n : Nat) : List Byte × State :=
  (hostBytes s a n,
    s.count 1233 (some realm) 1 { realm := some realm, master := m, addr := some a })

/-- The module writes host memory for a realm (event 1,234). -/
def State.hostWrite (s : State) (realm : Nat) (m : Option Master) (a : Nat) (bs : List Byte) : State :=
  State.count { s with host := { s.host with mem := hostStore s.host.mem a bs } }
    1234 (some realm) 1 { realm := some realm, master := m, addr := some a }

/-! ### MSI-X -/

/-- May a vector's message be sent now: the function's realm exists (R38), MSI-X enabled, not masked, Bus Master
Enable 1? -/
def msixOpen (s : State) (fn v : Nat) : Bool :=
  realmExists s fn && bitAt s.host.msixEnable fn && !bitAt s.host.msixFnMask fn && busMaster s fn &&
  !bitAt (Sparse.get (BitVec.ofNat 64 (2 ^ 32)) s.host.msixCtl (pairKey fn v)).toNat 32

/-- Vector `v` of function `fn` fires: its message is sent, or its pending bit is set (R45, R47). -/
def State.msix (s : State) (fn v : Nat) : State :=
  if s.host.endpoint = .inReset then s
  else if msixOpen s fn v then s.emit (.msix fn v)
  else { s with host := { s.host with msixPending := Sparse.set false s.host.msixPending (pairKey fn v) true } }

/-- Send what is pending and may now be sent, for the vectors of one function (R47). -/
def State.msixFlush (s : State) (fn : Nat) : State :=
  (List.range (if fn = 0 then 2048 else 64)).foldl (fun s v =>
    if Sparse.get false s.host.msixPending (pairKey fn v) && msixOpen s fn v then
      State.emit { s with host := { s.host with
        msixPending := Sparse.set false s.host.msixPending (pairKey fn v) false } } (.msix fn v)
    else s) s

/-- Interrupt source `src` fires (R46, R47). -/
def State.raise (s : State) (src : Nat) : State :=
  if !s.on F.SY_INT_ROUTE.EN src then s
  else
    let r := s.rd F.SY_INT_ROUTE.REALM src
    if realmExists s r then s.msix r (s.rd F.SY_INT_ROUTE.VECTOR src) else s.msix 0 0

/-! ### Coats -/

/-- Slot of the active coat: 0 A, 1 B. -/
def activeSlot (s : State) : Nat := s.rd F.SY_COAT_STATUS.ACTIVE_SLOT 0

/-- Slot of the staged coat. -/
def stagedSlot (s : State) : Nat := 1 - activeSlot s

/-- A coat by its slot. -/
def coatOf (s : State) (slot : Nat) : Coat := if slot = 0 then s.coat.slotA else s.coat.slotB

/-- Change the contents of a slot. -/
def State.updCoat (s : State) (slot : Nat) (f : Coat → Coat) : State :=
  if slot = 0 then { s with coat := { s.coat with slotA := f s.coat.slotA } }
  else { s with coat := { s.coat with slotB := f s.coat.slotB } }

/-- Generation of a slot's coat: the active slot's is GENERATION, the other holds the one before it. -/
def slotGen (s : State) (slot : Nat) : Nat :=
  let g := s.rd F.SY_COAT_STATUS.GENERATION 0
  if slot = activeSlot s then g else g - 1

/-- The staged slot cannot be written: a recoat runs (R593). -/
def recoating (s : State) : Bool := s.rd F.SY_COAT_STATUS.STATE 0 != 0

end Sys2Proof.Machine
end

