-- ==== Sys2Proof/Machine/LathBase.lean ====
section
/-! DEFINITION. The Lath's event log and life events (R519, R520, R535), and when a port, a FlexE client or a
slice serves (R75, R466 to R475, R492): what the other units use of these chapters. -/

namespace Sys2Proof.Machine

/-! ### The Lath's records -/

/-- An entry of the event log; the console UART sends it (R535, R536). -/
def logEntry (s : State) (kind detail rule : Nat) (f : Int) : State :=
  let h := s.rd F.LT_EVLOG_HEAD.HEAD 0
  let e : List Byte := leBytes 8 (s.clk.lath / 1000) ++ [BitVec.ofNat 8 kind, BitVec.ofNat 8 detail] ++
    leBytes 2 rule ++ leBytes 4 (unsigned 32 f)
  let s := { s with lt := { s.lt with evlog := Sparse.set [] s.lt.evlog h e } }
  let s := s.wr F.LT_EVLOG_HEAD.TOTAL 0 (satAdd 23 (s.rd F.LT_EVLOG_HEAD.TOTAL 0) 1)
  (s.wr F.LT_EVLOG_HEAD.HEAD 0 ((h + 1) % 512)).emit (.uart e)

/-- An entry that names no rule. -/
def logPlain (s : State) (kind detail : Nat) : State := logEntry s kind detail 0xFFFF 0

/-- A life event (R519): the Lath writes it, with the counts it changes, to flash (R520). -/
def lifeEvent (s : State) (kind unit detail : Nat) : State :=
  let h := s.rd F.LT_LIFE_HEAD.HEAD 0
  let e : List Byte := leBytes 8 (lifeSeconds s) ++ [BitVec.ofNat 8 kind, 0] ++ leBytes 2 unit ++ leBytes 4 detail
  let s := { s with lt := { s.lt with lifeRing := Sparse.set [] s.lt.lifeRing h e } }
  (s.wr F.LT_LIFE_HEAD.HEAD 0 ((h + 1) % 256)).wr F.LT_LIFE_HEAD.TOTAL 0 (satAdd 24 (s.rd F.LT_LIFE_HEAD.TOTAL 0) 1)

/-- Change the life record's counts. -/
def State.updLife (s : State) (f : Life → Life) : State := { s with lt := { s.lt with life := f s.lt.life } }

/-- Fabric and twin lanes are leaving, or are unpowered: the module enters Holdover or Dormant, or is in Holdover
(R541, R543, R545). -/
def lanesLeaving (s : State) : Bool :=
  match s.lt.transition with
  | some (.toHoldover _) => true
  | some (.toDormant _) => true
  | _ => s.lt.held

/-! ### Units (R492, R494) -/

/-- STATE of a unit: 0 IN_SERVICE, 1 SPARE, 2 DRAINING, 3 OUT, 4 SELFTEST, 5 LOAD, 6 SHADOW, 7 FAILED. -/
def svState (s : State) (u : Nat) : Nat := s.rd F.SY_SVC_UNIT.STATE u

def State.setSv (s : State) (u v : Nat) : State := s.wr F.SY_SVC_UNIT.STATE u v

/-- A value of SY_SVC_CMD.UNIT names a unit (R492). -/
def unitExists (u : Nat) : Bool :=
  decide (u ≤ 16 ∨ (32 ≤ u ∧ u ≤ 65) ∨ (96 ≤ u ∧ u ≤ 143))

/-- ACTIVE and SPARE of HN_DISP_CTRL show the active list (R75). -/
def syncActive (s : State) : State :=
  let mask := (List.range 17).foldl (fun m n => if s.hn.active.contains (some n) then m + 2 ^ n else m) 0
  (s.wr F.HN_DISP_CTRL.ACTIVE 0 mask).wr F.HN_DISP_CTRL.SPARE 0 (s.hn.spare.getD 31)

/-- The spare slice that may take a position now. -/
def freeSpare (s : State) : Option Nat := s.hn.spare.filter (fun n => svState s n == 1)

/-- BUSY of SY_SVC_CMD: a RETIRE or REINSTATE runs. -/
def syncBusy (s : State) : State := s.wr F.SY_SVC_CMD.BUSY 0 (flag (!s.sv.runs.isEmpty))

def State.addRun (s : State) (r : SvcRun) : State := syncBusy { s with sv := { s.sv with runs := s.sv.runs ++ [r] } }

def State.endRun (s : State) (r : SvcRun) : State :=
  syncBusy { s with sv := { s.sv with runs := s.sv.runs.filter (· != r) } }

/-- A stage of a unit's reinstatement fails: the unit is FAILED (R506). -/
def failUnit (s : State) (u : Nat) : State :=
  let s := (s.setSv u 7).wr F.SY_SVC_CMD.RESULT 0 3
  let s := if 96 ≤ u then s.wr F.FB_LINK.STATE (u - 96) 0 else s
  let s := lifeEvent { s with sv := { s.sv with runs := s.sv.runs.filter (fun r =>
    match r with
    | .reinstate v _ => v != u
    | _ => true) } } 14 u 0
  (syncBusy s).raise 0

/-- A background task of R515, by its place in the table, misses a deadline (R517). -/
def overrun (s : State) (task : Nat) : State := s.count 1090 (some task) 1 {}

/-- One day in ns. -/
def dayNs : Nat := 86400000000000

/-! ### Stacks -/

/-- A request reaches a stack: from idle self-refresh it becomes ACTIVE (R453). -/
def wakeStack (s : State) (st : Nat) : State :=
  let s := { s with hb := { s.hb with lastReq := Sparse.set 0 s.hb.lastReq st s.clk.ns } }
  if s.rd F.HB_STATUS.STATE st = 3 then s.wr F.HB_STATUS.STATE st 2 else s

/-- Temperature of a stack in °C, from its sensor's last sample in m°C. -/
def stackCelsius (s : State) (st : Nat) : Int := Sparse.get (0 : Int) s.lt.sources (41 + st) / 1000

/-- HB_STATUS.TEMP_C of a stack. -/
def stackTemp (s : State) (st : Nat) : Nat := unsigned 8 (stackCelsius s st)

/-! ### Ports and FlexE clients (R466 to R472) -/

/-- Lanes of a MODE (R467). -/
def modeLanes : Nat → Nat
  | 0 => 0
  | 5 => 4
  | 8 => 2
  | 9 => 2
  | 10 => 4
  | 11 => 4
  | 12 => 8
  | _ => 1

/-- 100G instances of a FlexE member's MODE; 0 where it may not be one (R469). -/
def modeInstances : Nat → Nat
  | 5 => 1
  | 6 => 1
  | 7 => 2
  | 8 => 2
  | 9 => 4
  | 10 => 4
  | _ => 0

def portMode (s : State) (n : Nat) : Nat := s.rd F.PT_PORT.MODE n

/-- The port whose lanes hold line lane `k`, if any: the lowest enabled one that covers it. -/
def lanePort (s : State) (k : Nat) : Option Nat :=
  (List.range 32).find? (fun n => s.on F.PT_PORT.EN n && decide (n ≤ k ∧ k < n + modeLanes (portMode s n)))

/-- Member ports of a FlexE group. -/
def groupPorts (s : State) (g : Nat) : List Nat := bitsSet (s.rd F.PT_FLEXE_GRP.PHYS g) 32

/-- Calendar slots of a group that are used (R469, R470). -/
def groupSlots (s : State) (g : Nat) : Nat := 20 * sumOf ((groupPorts s g).map (fun n => modeInstances (portMode s n)))

/-- Slots of client `c` in the calendar in use of a group (R470). -/
def clientSlots (s : State) (g c : Nat) : Nat :=
  let cal := 2 * g + s.rd F.PT_FLEXE_GRP.CAL_USE g
  ((List.range (min 640 (groupSlots s g))).filter (fun i => s.rd F.PT_FLEXE_CAL.CLIENT (cal * 640 + i) == c)).length

/-- The group that client `c` belongs to: the lowest-numbered enabled one that names it (R471). -/
def clientGroup (s : State) (c : Nat) : Option Nat :=
  (List.range 8).find? (fun g => s.on F.PT_FLEXE_GRP.EN g && decide (0 < clientSlots s g c))

/-- A slot count gives a client rate (R469). -/
def rateSlots (n : Nat) : Bool := n == 2 || n == 8 || (n != 0 && n % 5 == 0)

def portLink (s : State) (n : Nat) : Bool := s.on F.PT_PORT_STATUS.LINK n

/-- A MAC port is in service (R472). -/
def portServes (s : State) (n : Nat) : Bool :=
  s.on F.PT_PORT.EN n && s.rd F.VT_PORT.POWER n == 0 && s.rd F.SY_COAT_STATUS.GENERATION 0 != 0

/-- A FlexE client is up (R471). -/
def clientUp (s : State) (c : Nat) : Bool :=
  match clientGroup s c with
  | some g => rateSlots (clientSlots s g c) && (groupPorts s g).all (portLink s)
  | none => false

/-- A FlexE client is in service (R472). -/
def clientServes (s : State) (c : Nat) : Bool :=
  match clientGroup s c with
  | some g => clientUp s c && (groupPorts s g).all (portServes s)
  | none => false

/-- A port is a member of an enabled group: it carries no Ethernet MAC traffic (R469). -/
def flexMember (s : State) (n : Nat) : Bool :=
  (List.range 8).any (fun g => s.on F.PT_FLEXE_GRP.EN g && (groupPorts s g).contains n)

/-- Ingress source or local destination `o` below 160 is in service as a port or a client. -/
def objServes (s : State) (o : Nat) : Bool :=
  if o < 32 then portServes s o && !flexMember s o else clientServes s (o - 32)

end Sys2Proof.Machine
end

