-- ==== Sys2Proof/Machine/Segments.lean ====
section
/-! DEFINITION. The bytes of Fresco's segments and directory, and of the staging region that holds them (R397 to R400,
R403, R423). -/

namespace Sys2Proof.Machine

/-- Bytes of a segment, and of its record area (R397). -/
def segSize : Nat := 8388608
def segArea : Nat := 8384512

/-- Offsets of a segment's records, rising, with each record's number (R399). -/
def recOffsets : Nat → Nat → List CapRec → List (Nat × Nat × Nat)
  | _, _, [] => []
  | off, i, r :: rs => (off, i, r.time) :: recOffsets (off + r.bytes.length) (i + 1) rs

/-- One entry of the time index (R399). -/
def indexEntry (offs : List (Nat × Nat × Nat)) (b : Nat) : List Byte :=
  match offs.find? (fun o => o.1 / 131072 == b) with
  | some (off, i, t) => leBytes 8 t ++ leBytes 4 off ++ leBytes 4 i
  | none => leBytes 8 (2 ^ 64 - 1) ++ leBytes 8 0

/-- Capture times of the first and the last record, 0 when there is none. -/
def Seg.firstTime (g : Seg) : Nat := match g.records.head? with
  | some r => r.time
  | none => 0
def Seg.lastTime (g : Seg) : Nat := match g.records.getLast? with
  | some r => r.time
  | none => 0

/-- BREAK_INFO (R422). -/
def breakBytes : Option BreakInfo → List Byte
  | none => leBytes 64 0
  | some b => BitVec.ofNat 8 b.reason :: leBytes 7 0 ++ leBytes 8 b.lastSeq ++ leBytes 8 b.lastTime ++
      leBytes 8 b.lastSealed ++ leBytes 8 b.restart ++ leBytes 24 0

/-- The segment header's 4,096 bytes (R398). -/
def segHeader (g : Seg) : List Byte :=
  let sessions := g.records.foldl (fun a r => setBit a r.session true) 0
  let offs := recOffsets 4096 0 g.records
  slice ([0x46, 0x52, 0x53, 0x47] ++ leBytes 2 1 ++ leBytes 2 g.module ++ leBytes 8 g.seq ++ leBytes 8 g.ringId ++
    leBytes 8 g.firstTime ++ leBytes 8 g.lastTime ++ leBytes 4 g.records.length ++ leBytes 4 g.used ++
    leBytes 8 g.drops ++ [BitVec.ofNat 8 g.flags] ++ leBytes 7 0 ++ beBytes 32 g.prev ++ leBytes 32 0 ++
    leBytes 128 sessions ++ (List.range 64).flatMap (indexEntry offs) ++ breakBytes g.brk) 0 4096

/-- A segment's bytes (R397). -/
def segBytes (g : Seg) : List Byte := segHeader g ++ slice (g.records.flatMap (·.bytes)) 0 segArea

/-- A segment's digest (R400). -/
def segDigest (g : Seg) : Nat := sha256 (segBytes g)

/-- The digest of a segment's bytes as they read back from its target (R422, R424). -/
def readDigest (g : Seg) : Nat := g.readAs.getD g.digest

/-! ### The directory (R423) -/

/-- A directory entry's 32 bytes; an empty entry is 0. -/
def dirBytes : Option DirEntry → List Byte
  | none => leBytes 32 0
  | some e => leBytes 8 e.seq ++ leBytes 4 e.slot ++
      [BitVec.ofNat 8 e.target, BitVec.ofNat 8 (flag e.durable + 2 * flag e.brk + 4 * flag e.supply), 0, 0] ++
      leBytes 8 e.firstTime ++ leBytes 8 e.lastTime

/-- Byte `o` of the directory, as BAR4 and stack A show it. -/
def dirByte (s : State) (o : Nat) : Byte := (dirBytes (Sparse.get none s.fr.directory (o / 32))).getD (o % 32) 0

/-- `n` bytes of BAR4 from offset `o`. -/
def bar4Read (s : State) (o n : Nat) : Nat := leNat ((List.range n).map (fun i => dirByte s (o + i)))

/-! ### The staging region of stack A (R403) -/

/-- The region's first byte, and its directory's size. -/
def stagingBase : Nat := 20 * 2 ^ 30
def directorySize : Nat := 2 ^ 28

/-- The segment in a segment buffer: a sealed one, or the open one, whose header is still to be made. -/
def bufferBytes (s : State) (b : Nat) : Option (List Byte) :=
  match s.fr.segs.find? (fun x => x.seg.buffer == b), s.fr.opened with
  | some x, _ => some (segBytes x.seg)
  | none, some g =>
    if g.buffer = b then some (leBytes 4096 0 ++ slice (g.records.flatMap (·.bytes)) 0 segArea) else none
  | none, none => none

/-- Byte `x` of stack A where Fresco has put it: its directory, and the segment buffers in use. -/
def stagingByte (s : State) (x : Nat) : Option Byte :=
  if x < stagingBase then none
  else if x < stagingBase + directorySize then some (dirByte s (x - stagingBase))
  else
    let y := x - stagingBase - directorySize
    (bufferBytes s (y / segSize)).map (fun bs => bs.getD (y % segSize) 0)

end Sys2Proof.Machine
end

