-- ==== Sys2Proof/Machine/Stacks.lean ====
section
/-! DEFINITION. What an HBM stack holds, where, and what its readers meet (R447 to R451, R456, R457, R464). -/

namespace Sys2Proof.Machine

/-! ### Organisation (R447, R448, R464) -/

/-- Bytes of a stack, of a yield region, and granule rows in a yield region. -/
def stackSize : Nat := 25769803776
def yieldSize : Nat := 1610612736
def yieldRows : Nat := 196608

/-- Channel and pseudo-channel of an offset (R448). -/
def hbmChannel (x : Nat) : Nat := bitsOf x 9 4
def hbmPseudo (x : Nat) : Nat := bitsOf x 8 1

/-- The channel retired in a stack, if one is. -/
def retiredChannel (s : State) (st : Nat) : Option Nat :=
  (bitsSet (s.rd F.HB_STATUS.RETIRED st) 16).head?

/-- Number t of a granule of a retired channel, with yield region `y` (R464). -/
def granuleNo (y x : Nat) : Nat :=
  let r := x / 8192
  2 * (if r < y * yieldRows then r else r - yieldRows) + hbmPseudo x

/-- Where a granule of retired channel `c` lives, with yield region `y` (R464). -/
def remapped (c y x : Nat) : Nat :=
  let t := granuleNo y x
  let k := t % 30 / 2
  (y * yieldRows + t / 30) * 8192 + (if k < c then k else k + 1) * 512 + t % 30 % 2 * 256 + x % 256

/-- Granules of a retired channel (R464). -/
def allGranules : Nat := 5898240

/-- The channel that gives up its granules, the yield region, and how many granules have moved, in the order of their
t (R464, R465). -/
def movedTo (s : State) (st : Nat) : Option (Nat × Nat × Nat) :=
  match Sparse.get none s.hb.migrating st with
  | some m => some (m.channel, m.yieldTo, s.rd F.HB_RETIRE.PROGRESS st)
  | none =>
    match retiredChannel s st, Sparse.get none s.hb.yielded st with
    | some c, some y => some (c, y, allGranules)
    | _, _ => none

/-- The place of an offset in its stack (R448, R464, R465). -/
def hbmPlace (s : State) (st x : Nat) : Nat :=
  match movedTo s st with
  | some (c, y, n) => if hbmChannel x = c ∧ x / yieldSize ≠ y ∧ granuleNo y x < n then remapped c y x else x
  | none => x

/-- The bank of a place: channel, pseudo-channel, SID, bank group and bank in one number; and its row. -/
def placeBank (x : Nat) : Nat := bitsOf x 8 5 + 32 * (bitsOf x 15 4 + 16 * bitsOf x 33 2)
def placeRow (x : Nat) : Nat := bitsOf x 19 14

/-- An offset lies in the stack's space (R172, R464). -/
def inStack (s : State) (st x : Nat) : Bool :=
  decide (x < stackSize) && Sparse.get none s.hb.yielded st != some (x / yieldSize)

def hbState (s : State) (st : Nat) : Nat := s.rd F.HB_STATUS.STATE st

/-- A stack answers requests: ACTIVE, or in idle self-refresh, from which a request wakes it (R453). -/
def stackServes (s : State) (st : Nat) : Bool := hbState s st == 2 || hbState s st == 3

/-! ### Contents -/

/-- A byte of a stack: in stack A's staging region, what Fresco has there (R403). -/
def stackByte (s : State) (st x : Nat) : Byte :=
  ((if st = 0 then stagingByte s x else none).getD (Sparse.get (0 : Byte) s.hb.mem (pairKey st x)))

def stackStore (m : Sparse Byte) (st x : Nat) : List Byte → Sparse Byte
  | [] => m
  | b :: bs => stackStore (Sparse.set (0 : Byte) m (pairKey st x) b) st (x + 1) bs

def blockBad (s : State) (st x : Nat) : Bool := Sparse.get false s.hb.bad (pairKey st (x / 32))

/-- Bytes `x` to `x + n - 1` of a stack as a steward thread or Trowel reads them: an uncorrectable block's bytes
read as 0 (R456). -/
def stackBytes (s : State) (st x n : Nat) : List Byte :=
  (List.range n).map (fun i => if blockBad s st (x + i) then 0 else stackByte s st (x + i))

/-- Blocks that `n` bytes from `x` touch. -/
def blocksOf (x n : Nat) : Nat := if n = 0 then 0 else (x + n - 1) / 32 + 1 - x / 32

/-- System address of a stack offset (R172). -/
def stackAddr (st x : Nat) : Nat := (st + 1) * 2 ^ 56 + x

/-- Blocks of a stack are read or written for a requester with attributes `a` (R560). -/
def countBlocks (s : State) (write : Bool) (st x n : Nat) (a : Attr) : State :=
  (List.range (blocksOf x n)).foldl (fun s i =>
    s.count (if write then 1227 else 1226) (some st) 1 { a with addr := some (stackAddr st ((x / 32 + i) * 32)) }) s

/-- Store bytes in a stack; a block that is written whole is no longer uncorrectable. -/
def stackWrite (s : State) (st x : Nat) (bs : List Byte) (a : Attr) : State :=
  let s := countBlocks (wakeStack s st) true st x bs.length a
  let whole (k : Nat) : Bool := decide (x ≤ k * 32 ∧ k * 32 + 32 ≤ x + bs.length)
  { s with hb := { s.hb with
      mem := stackStore s.hb.mem st x bs
      bad := (List.range (blocksOf x bs.length)).foldl (fun m i =>
        if whole (x / 32 + i) then Sparse.set false m (pairKey st (x / 32 + i)) false else m) s.hb.bad } }

/-! ### Errors (R456, R457, R463) -/

/-- An error's record in the stack's log (R457). -/
def logError (s : State) (st port x : Nat) (ue : Bool) : State :=
  let i := s.rd F.HB_STATUS.ERR_NEXT st
  let k := st * 64 + i
  let s := ((s.wr F.HB_ERRLOG.ADDR k (x / 32 * 32)).wr F.HB_ERRLOG.UE k (flag ue)).wr F.HB_ERRLOG.PORT k port
  let s := (s.wr F.HB_ERRLOG.TIME k s.clk.ptp).wr F.HB_STATUS.ERR_NEXT st ((i + 1) % 64)
  if ue then { s with hb := { s.hb with uncorrected := Sparse.upd 0 s.hb.uncorrected st (· + 1) } }
  else { s with hb := { s.hb with corrected := Sparse.upd 0 s.hb.corrected st (· + 1) } }

/-- A row becomes a repair candidate (R463). -/
def addCandidate (s : State) (st bank row : Nat) : State :=
  if s.hb.candidates.contains (st, bank, row) then s
  else { s with hb := { s.hb with candidates := s.hb.candidates ++ [(st, bank, row)] } }

/-- A corrected error at an offset: logged, and counted towards the row's limit in 24 h (R457, R463). -/
def correctedError (s : State) (st port x : Nat) : State :=
  let s := logError s st port x false
  let p := hbmPlace s st x
  let k := tripleKey st (placeBank p) (placeRow p)
  let ts := ((Sparse.get [] s.hb.rowErrs k) ++ [s.clk.ns]).filter (fun t => decide (s.clk.ns < t + dayNs))
  let s := { s with hb := { s.hb with rowErrs := Sparse.set [] s.hb.rowErrs k ts } }
  if s.rd F.HB_CTRL.CE_ROW_LIMIT st ≤ ts.length then addCandidate s st (placeBank p) (placeRow p) else s

/-- An uncorrectable error at an offset: its block stays marked, and its row is a candidate (R456, R463). -/
def uncorrectableError (s : State) (st port x : Nat) : State :=
  let s := logError s st port x true
  let s := { s with hb := { s.hb with bad := Sparse.set false s.hb.bad (pairKey st (x / 32)) true } }
  let p := hbmPlace s st x
  addCandidate s st (placeBank p) (placeRow p)

/-- What a read of a block meets: a block already uncorrectable stays so. A corrected block is written back
(R455). -/
def readOutcome (s : State) (st port x : Nat) (ecc : EccResult) : State :=
  if blockBad s st x then uncorrectableError s st port x
  else
    match ecc with
    | .good => s
    | .corrected => countBlocks (correctedError s st port x) true st (x / 32 * 32) 32 {}
    | .uncorrectable => uncorrectableError s st port x

/-! ### In-order mode, and reads (R449 to R451) -/

/-- A read arrives: where an earlier write to its row is pending, and its bank is not in in-order mode, the bank enters
it until the last such write completes (R450). -/
def arriveRead (s : State) (st x : Nat) : State :=
  let p := hbmPlace s st x
  let k := pairKey st (placeBank p)
  let ws := Sparse.get [] s.hb.writes k
  if ws.any (·.2) then s
  else
    match splitAtFirst (fun w => w.1 == placeRow p) ws.reverse with
    | some (later, w, earlier) =>
      State.count { s with hb := { s.hb with
        writes := Sparse.set [] s.hb.writes k (earlier.reverse ++ (w.1, true) :: later.reverse) } } 896 (some st) 1 {}
    | none => s

/-- A port reads blocks of a stack: the stack is woken, and each read is counted and may meet an uncorrectable block
(R449, R453, R457, R560). -/
def readBlocks (s : State) (st port : Nat) (blocks : List Nat) (a : Attr) : State :=
  if blocks.isEmpty then s
  else
    blocks.foldl (fun s b =>
      let s := arriveRead (s.count 1226 (some st) 1 { a with addr := some (stackAddr st (32 * b)) }) st (32 * b)
      if blockBad s st (32 * b) then uncorrectableError s st port (32 * b) else s) (wakeStack s st)

/-- The blocks that `n` bytes from `x` touch. -/
def blockList (x n : Nat) : List Nat := (List.range (blocksOf x n)).map (x / 32 + ·)

/-- Read bytes of a stack for a requester at `port`. -/
def stackRead (s : State) (st port x n : Nat) (a : Attr) : List Byte × State :=
  let s := readBlocks s st port (blockList x n) a
  (stackBytes s st x n, s)

end Sys2Proof.Machine
end

