-- ==== Sys2Proof/Machine/TwinBase.lean ====
section
/-! DEFINITION. The twin pair's roles, the records a module sends its twin, and decision digests (R371, R378,
R379, R389 to R391): what the forwarding engine and the learn engine use. -/

namespace Sys2Proof.Machine

/-- STATE of the pair: 0 OFF, 1 ALONE, 2 FORMING, 3 ANNEAL_COPY, 4 ANNEAL_SHADOW, 5 PAIRED. -/
def tnState (s : State) : Nat := s.rd F.TN_STATUS.STATE 0
def tnLead (s : State) : Bool := s.on F.TN_STATUS.ROLE 0
def tnLink (s : State) : Bool := s.on F.TN_STATUS.LINK 0
def tnLevel (s : State) : Nat := s.rd F.TN_STATUS.LEVEL_EFF 0

/-- The module is a follower (R371, R373, R374). -/
def tnFollower (s : State) : Bool := !tnLead s && decide (2 ≤ tnState s)

/-- A message's place in the order of R368's table; those the table does not list go with the change records (DESIGN CHOICE,
log entry 167). -/
def TwinMsg.rank : TwinMsg → Nat
  | .heartbeat .. => 1
  | .digest .. => 3
  | .anneal .. => 5
  | .report .. => 6
  | _ => 2

/-- A message to the twin waits for a lane (R368); with the twin link down there is none. -/
def sendTwin (s : State) (m : TwinMsg) : State :=
  if tnLink s then { s with tn := { s.tn with tx := s.tn.tx ++ [m] } } else s

/-- The lead tells its follower of a learned-entry change, under the next change number (R378, R387). -/
def sendChange (s : State) (kind : ChangeKind) (t : Nat) (k : List (BitVec 4)) (data : Word) (ts : Nat) : State :=
  if tnLead s && s.tn.sending then
    let n := s.tn.change + 1
    sendTwin { s with tn := { s.tn with change := n } } (.change ⟨n, kind, t, k, data, ts⟩)
  else s

/-- A hit has changed an entry's TS: a follower tells its lead (R379). -/
def sendRefresh (s : State) (t : Nat) (k : List (BitVec 4)) : State :=
  if tnFollower s then sendTwin s (.refresh t k) else s

/-- The decision digest of a forwarded protected packet (R389). -/
def decisionDigest (p : Pkt) : BitVec 32 :=
  let t := p.ticket
  BitVec.ofNat 32 (crc32c (leBytes 2 (Tk.stream t) ++ leBytes 2 (Tk.rseq t) ++ leBytes 2 (Tk.dest t % 1024) ++
    leBytes 2 (Tk.eq t) ++ leBytes 4 (Tk.ecoat t / 2 * 2) ++ leBytes 4 p.data.length ++ slice (tkBytes t) 120 8))

/-- The lead sets or clears SUSPECT here and at its twin (R391). -/
def setSuspect (s : State) : State :=
  (sendTwin (s.wr F.TN_STATUS.SUSPECT 0 1) (.suspect true)).raise 0

/-- The PTP time base as a time field shows it: bit 63 is 1 while it is not valid (R480). -/
def ptpTime (s : State) : Nat :=
  s.clk.ptp % 2 ^ 63 + (if s.on F.PT_TIME_CTRL.VALID 0 then 0 else 2 ^ 63)

/-- A divergence of the pair `x` and `d`: it counts towards SUSPECT with those of the last DIV_T_MS (R391), and
the health report shows it (R566). -/
def divergence (s : State) (x d : Digest) : State :=
  let s := s.count 717 none 1 {}
  let ds := (s.tn.divs ++ [s.clk.ns]).filter (fun t => decide (s.clk.ns < t + s.rd F.TN_DIV.DIV_T_MS 0 * 1000000))
  let own := if d.own then d.digest else x.digest
  let other := if d.own then x.digest else d.digest
  let s := { s with tn := { s.tn with
    divs := ds
    lastDivAt := s.clk.ns
    divTotal := s.tn.divTotal + 1
    lastDiv := some (d.stream, d.rseq, own, other, s.clk.ptp) } }
  if s.rd F.TN_DIV.DIV_N 0 ≤ ds.length then setSuspect s else s

/-- An unpaired decision, counted per side: 0 the lead's own record, 1 the follower's (R390). -/
def unpaired (s : State) (own : Bool) : State := s.count 718 (some (if own then 0 else 1)) 1 {}

/-- A record joins the lead's compare store: it is paired by STREAM and RSEQ with the other side's, or kept; a
full store evicts its oldest (R390). -/
def compareDigest (s : State) (d : Digest) : State :=
  match splitAtFirst (fun (x : Digest) => x.own != d.own && x.stream == d.stream && x.rseq == d.rseq)
      s.tn.digests with
  | some (pre, x, post) =>
    let s := { s with tn := { s.tn with digests := pre ++ post } }
    if x.digest = d.digest then s.count 716 none 1 {} else divergence s x d
  | none =>
    match s.tn.digests with
    | x :: xs =>
      if 65536 ≤ s.tn.digests.length then unpaired { s with tn := { s.tn with digests := xs ++ [d] } } x.own
      else { s with tn := { s.tn with digests := s.tn.digests ++ [d] } }
    | [] => { s with tn := { s.tn with digests := [d] } }

/-- Henig egress has executed FWD on a packet: at level 2 a protected one gives a digest, which the lead keeps
and the follower sends (R389). -/
def digestForward (s : State) (p : Pkt) : State :=
  if Tk.isProtected p.ticket && tnLink s && tnLevel s == 2 then
    let d := decisionDigest p
    if tnLead s then compareDigest s ⟨true, Tk.stream p.ticket, Tk.rseq p.ticket, d, s.clk.ns⟩
    else if tnFollower s then sendTwin s (.digest (Tk.stream p.ticket) (Tk.rseq p.ticket) d)
    else s
  else s

end Sys2Proof.Machine
end

