-- ==== Sys2Proof/Machine/Threads.lean ====
section
/-! DEFINITION. Threads, channels and thread faults (R81 to R105, R113, R148 to R153): what every
instruction and every reply uses. -/

namespace Sys2Proof.Machine

/-! ### Places -/

/-- Number of the core a thread runs on: packet cores first, then steward cores. -/
def coreOf : Tid → Nat
  | .packet slice core _ => slice * 24 + core
  | .steward die core _ => 408 + die * 4 + core

/-- A thread's number in its core. -/
def threadNo : Tid → Nat
  | .packet _ _ t => t
  | .steward _ _ t => t

def isSteward : Tid → Bool
  | .packet .. => false
  | .steward .. => true

/-- The die a thread runs on: 0 Henig, 1 Varton. -/
def dieOf : Tid → Nat
  | .packet .. => 0
  | .steward die _ _ => die

/-- The master that a thread's occurrences carry (R563). -/
def masterOf : Tid → Master
  | .packet slice _ _ => .slice slice
  | .steward die core _ => .steward (4 * die + core)

def threadKey (t : Tid) : Nat := pairKey (coreOf t) (threadNo t)

/-- Thread `t` of a core, as that core's `Tid`. -/
def coreThread (like : Tid) (t : Nat) : Tid :=
  match like with
  | .packet slice core _ => .packet slice core t
  | .steward die core _ => .steward die core t

/-- A thread that holds nothing (R86, R116). -/
def Thread.init : Thread where
  regs := Vector.replicate 32 0
  preds := 0
  key := 0
  kpos := 0
  pc := 0
  oldNext := none
  instr := (0, 0)
  blocked := .none
  job := none
  run := .unstarted
  held := none
  events := 0

def State.thread (s : State) (t : Tid) : Thread := Sparse.get Thread.init s.hn.threads (threadKey t)

def State.setThread (s : State) (t : Tid) (th : Thread) : State :=
  { s with hn := { s.hn with threads := Sparse.set Thread.init s.hn.threads (threadKey t) th } }

def State.updThread (s : State) (t : Tid) (f : Thread → Thread) : State := s.setThread t (f (s.thread t))

/-- A general register: g0 reads 0 (R114). -/
def Thread.reg (th : Thread) (r : Nat) : Word := if r = 0 then 0 else th.regs.toList.getD r 0

/-- Write a general register: a write to g0 is discarded (R114). -/
def Thread.setReg (th : Thread) (r : Nat) (v : Word) : Thread :=
  if r = 0 then th else { th with regs := th.regs.setIfInBounds r v }

/-- A predicate. -/
def Thread.pred (th : Thread) (p : Nat) : Bool := th.preds.getLsbD p

/-- Set a predicate. -/
def Thread.setPred (th : Thread) (p : Nat) (b : Bool) : Thread :=
  { th with preds := BitVec.ofNat 8 (setBit th.preds.toNat p b) }

/-- The empty channel. -/
def Chan.init : Chan where
  entries := []
  reserved := []
  readers := []
  held := []

def State.chan (s : State) (core ch : Nat) : Chan := Sparse.get Chan.init s.hn.chans (pairKey core ch)

def State.setChan (s : State) (core ch : Nat) (c : Chan) : State :=
  { s with hn := { s.hn with chans := Sparse.set Chan.init s.hn.chans (pairKey core ch) c } }

/-- A channel has an entry neither occupied nor reserved (R93). -/
def Chan.room (c : Chan) : Bool := decide (c.entries.length + c.reserved.length < 8)

/-! ### Local memory (R84, R89) -/

def lmemByte (s : State) (core a : Nat) : Byte := Sparse.get (0 : Byte) s.hn.lmem (pairKey core a)

def lmemBytes (s : State) (core a n : Nat) : List Byte := (List.range n).map (fun i => lmemByte s core (a + i))

def lmemStore (m : Sparse Byte) (core a : Nat) : List Byte → Sparse Byte
  | [] => m
  | b :: bs => lmemStore (Sparse.set (0 : Byte) m (pairKey core a) b) core (a + 1) bs

def State.setLmem (s : State) (core a : Nat) (bs : List Byte) : State :=
  { s with hn := { s.hn with lmem := lmemStore s.hn.lmem core a bs } }

/-- First byte of a thread's 8 KiB slice. -/
def lmemBase (t : Tid) : Nat := threadNo t * 8192

/-- May a thread address the bytes `a` to `a + n - 1` of its core's local memory (R84, R89)? -/
def lmemAllowed (t : Tid) (a n : Nat) : Bool :=
  match t with
  | .packet _ _ k => decide (k * 8192 ≤ a ∧ a + n ≤ k * 8192 + 8192)
  | .steward _ _ k => if k = 0 then decide (a + n ≤ 131072) else decide (k * 8192 ≤ a ∧ a + n ≤ k * 8192 + 8192)

/-! ### Delivery to a thread -/

/-- Give a blocked reader its entry (R94, R124). -/
def giveEntry (s : State) (t : Tid) (e : ChanEntry) : State :=
  s.updThread t (fun th =>
    match th.blocked with
    | .recv _ d => { (th.setReg d e.w0).setReg (d + 1) e.w1 with blocked := .none }
    | _ => th)

/-- An entry arrives in a channel: the thread blocked first takes it, else it is stored. -/
def pushEntry (s : State) (like : Tid) (ch : Nat) (e : ChanEntry) : State :=
  let core := coreOf like
  let c := s.chan core ch
  match c.readers with
  | t :: ts => giveEntry (s.setChan core ch { c with readers := ts }) (coreThread like t) e
  | [] => s.setChan core ch { c with entries := c.entries ++ [e] }

/-- The number of a packet's PMAT or MTR as it is sent, which its limit looks at; and the packet with it counted
(R151). A steward thread has no limit. -/
def numberReq (job : Option Job) (kind : ReqKind) : Option Job × ReqKind :=
  match job, kind with
  | some j, .pmat set start d slot _ =>
    (some { j with pmats := j.pmats + 1 }, .pmat set start d slot (decide (8 ≤ j.pmats)))
  | some j, .mtr m b a c _ _ => (some { j with mtrs := j.mtrs + 1 }, .mtr m b a c j.mtrs (decide (4 ≤ j.mtrs)))
  | _, _ => (job, kind)

/-- Send a request: it is numbered, and its reply entry is reserved (R93, R149). A request held under R93 is sent, and
counts, when its reply entry frees. -/
def sendReq (s : State) (t : Tid) (ch : Nat) (asked : ReqKind) : State :=
  let num := numberReq (s.thread t).job asked
  let kind := num.2
  let s := s.updThread t (fun th => { th with job := num.1 })
  let core := coreOf t
  let c := s.chan core ch
  let id := s.hn.nextReq
  let uid := match (s.thread t).job with
    | some j => j.uid
    | none => 0
  let attr : Attr := match (s.thread t).job with
    | some j => { j.pkt.attr with master := some (masterOf t) }
    | none => { master := some (masterOf t) }
  let s := s.setChan core ch { c with reserved := c.reserved ++ [id] }
  { s with hn := { s.hn with reqs := s.hn.reqs ++ [⟨id, t, ch, uid, attr, kind⟩], nextReq := id + 1 } }

/-- While a channel has room, the threads held on it go on, first held first (R93). -/
def serveHeld (s : State) (like : Tid) (ch : Nat) : Nat → State
  | 0 => s
  | fuel + 1 =>
    let core := coreOf like
    let c := s.chan core ch
    match c.held with
    | [] => s
    | t :: ts =>
      if c.room then
        let tid := coreThread like t
        let s := s.setChan core ch { c with held := ts }
        let s :=
          match (s.thread tid).blocked with
          | .request _ kind => sendReq s tid ch kind
          | .send _ w0 w1 => pushEntry s tid ch ⟨w0, w1, 0⟩
          | _ => s
        serveHeld (s.updThread tid (fun th => { th with blocked := .none })) like ch fuel
      else s

/-- A reply arrives: it takes its reserved entry, or is discarded when the reservation is gone (R93, R153). -/
def deliverReply (s : State) (r : Req) (w0 w1 : Word) : State :=
  let core := coreOf r.tid
  let c := s.chan core r.ch
  let s := { s with hn := { s.hn with reqs := s.hn.reqs.filter (fun q => q.id != r.id) } }
  if c.reserved.contains r.id then
    let s := s.setChan core r.ch { c with reserved := c.reserved.filter (· != r.id) }
    serveHeld (pushEntry s r.tid r.ch ⟨w0, w1, r.uid⟩) r.tid r.ch 8
  else s

/-- Reservations `ids` of a thread's core are freed and the entries `gone` removed, and the thread no longer waits on
any channel. -/
def dropReplies (s : State) (t : Tid) (ids : List Nat) (gone : ChanEntry → Bool) : State :=
  (List.range 16).foldl (fun s ch =>
    let core := coreOf t
    let c := s.chan core ch
    let c' : Chan :=
      { entries := c.entries.filter (fun e => !gone e)
        reserved := c.reserved.filter (fun i => !ids.contains i)
        readers := c.readers.filter (· != threadNo t)
        held := c.held.filter (· != threadNo t) }
    serveHeld (s.setChan core ch c') t ch 8) s

/-- A packet leaves its thread: its reservations and its unread replies are removed (R153). -/
def leaveChannels (s : State) (t : Tid) (uid : Nat) : State :=
  dropReplies s t ((s.hn.reqs.filter (fun q => q.uid == uid)).map (·.id)) (fun e => e.uid == uid)

/-- A steward thread faults: the replies to its requests are discarded as they arrive, and their reservations freed
(R95; log entry 142). -/
def stewardLeaves (s : State) (t : Tid) : State :=
  dropReplies s t ((s.hn.reqs.filter (fun q => q.tid == t)).map (·.id)) (fun _ => false)

/-! ### Event lines (R90) -/

/-- A waiting WEVT goes on when an unmasked bit is set (R169). -/
def wakeEvents (th : Thread) : Thread :=
  match th.blocked with
  | .wevt d m =>
    if th.events &&& m ≠ 0 then
      { th.setReg d (th.events &&& m) with events := th.events &&& ~~~m, blocked := .none }
    else th
  | _ => th

/-- A line of a steward thread asserts: its pending bit is set and a waiting WEVT goes on. -/
def assertLine (s : State) (die core t line : Nat) : State :=
  s.updThread (.steward die core t) (fun th =>
    wakeEvents { th with events := th.events ||| BitVec.ofNat 64 (2 ^ (line % 64)) })

/-! ### The packet's end -/

/-- What a shadow comparison covers (R508). -/
def endCrc (p : Pkt) (forwarded : Bool) : Nat :=
  let tk := tkBytes p.ticket
  crc32c ([BitVec.ofNat 8 (flag forwarded)] ++ tk.take 4 ++ slice tk 12 16 ++ slice tk 64 64 ++
    slice tk 28 4 ++ p.data.take 512)

def ObjSt.init : ObjSt where
  pointer := 0
  nextSeq := 0
  nextRelease := 0
  inflight := 0
  retired := []

def objKey (side : Side) (obj : Nat) : Nat := sideObj side obj

def State.obj (s : State) (side : Side) (o : Nat) : ObjSt := Sparse.get ObjSt.init s.hn.objs (objKey side o)

def State.setObj (s : State) (side : Side) (o : Nat) (v : ObjSt) : State :=
  { s with hn := { s.hn with objs := Sparse.set ObjSt.init s.hn.objs (objKey side o) v } }

/-- A packet is retired: its sequence place waits for release (R106). A shadow copy only ends (R508). -/
def retireJob (s : State) (j : Job) (forwarded : Bool) : State :=
  let s :=
    match j.shadow, j.twinShadow with
    | some n, _ => { s with hn := { s.hn with shadowEnds := s.hn.shadowEnds ++ [(n, true, endCrc j.pkt forwarded)] } }
    | none, some n =>
      { s with hn := { s.hn with shadowEnds := s.hn.shadowEnds ++ [(n, false, endCrc j.pkt forwarded)] } }
    | none, none => s
  let s := { s with hn := { s.hn with opsUsed := Sparse.set 0 s.hn.opsUsed j.uid 0 } }
  if j.shadow.isSome then s
  else
    let o := s.obj j.side j.obj
    s.setObj j.side j.obj { o with
      retired := o.retired ++ [⟨j.seq, if forwarded then some j.pkt.withLength else none, j.copies⟩] }

/-! ### Thread faults (R98 to R104) -/

/-- Write a fault record into its die's ring and tell the supervisor thread (R99, R102, R103). -/
def writeFaultRecord (s : State) (die : Nat) (rec : List Byte) : State :=
  let next := s.rd F.HN_FAULT_HEAD.NEXT die
  let total := s.rd F.HN_FAULT_HEAD.TOTAL die
  let s := if 1024 ≤ total then s.count 68 (some die) 1 {} else s
  let s := { s with hn := { s.hn with faultRecs := Sparse.set [] s.hn.faultRecs (pairKey die next) rec } }
  let s := (s.wr F.HN_FAULT_HEAD.NEXT die ((next + 1) % 1024)).wr F.HN_FAULT_HEAD.TOTAL die (satAdd 32 total 1)
  assertLine s die 0 0 0

/-- The 64 bytes of a fault record (R102). Its PTP time is the time base's count, valid or not (log entry 144). -/
def faultRecord (s : State) (t : Tid) (code addr : Nat) (word : BitVec 32) (lm : Nat) : List Byte :=
  let th := s.thread t
  let place : List Byte :=
    match t with
    | .packet slice core k => [BitVec.ofNat 8 slice, BitVec.ofNat 8 core, BitVec.ofNat 8 k, 0]
    | .steward _ core k => [BitVec.ofNat 8 core, 0, BitVec.ofNat 8 k, 0]
  let flags : Nat :=
    match th.job with
    | some j => (if j.handler then 2 else 0) + (if j.side = .egress then 4 else 0)
    | none => if isSteward t then 1 else 0
  let job : List Byte :=
    match th.job with
    | some j => leBytes 4 (j.slot + 2 * (j.gen % 2 ^ 31)) ++ leBytes 2 j.obj ++ leBytes 2 j.seq ++
        leBytes 4 (s.clk.ns - j.takenAt)
    | none => leBytes 12 0
  let tail : List Byte :=
    match th.job with
    | some j => (tkBytes j.pkt.ticket).take 16
    | none => leBytes 16 0
  leBytes 2 code ++ [BitVec.ofNat 8 (dieOf t), BitVec.ofNat 8 flags] ++ place ++ leBytes 4 addr ++
    leBytes 4 word.toNat ++ leBytes 4 (if code = 2 then lm else 0) ++ job ++ leBytes 8 s.clk.ptp ++
    [th.preds] ++ leBytes 7 0 ++ tail

def SliceSt.init : SliceSt where
  queue := []
  handlers := []
  rotate := 0

def State.slice (s : State) (n : Nat) : SliceSt := Sparse.get SliceSt.init s.hn.slices n

def State.setSlice (s : State) (n : Nat) (v : SliceSt) : State :=
  { s with hn := { s.hn with slices := Sparse.set SliceSt.init s.hn.slices n v } }

/-! ### Retiring a slice (R495 to R499) -/

/-- Local memory of a slice's cores is 0 (R497, R506). -/
def clearSliceMemory (s : State) (n : Nat) : State :=
  { s with hn := { s.hn with lmem := s.hn.lmem.filter (fun e =>
      let core := (unpair e.1).1
      decide (core < n * 24 ∨ n * 24 + 24 ≤ core)) } }

/-- The first position of the active list that `p` holds of. -/
def findPosition (s : State) (p : Option Nat → Bool) : Option Nat :=
  (List.range 16).find? (fun i => p (s.hn.active.getD i none))

/-- Slice `n` starts to drain (R495 at t0): the spare, when one may be used, takes its position and its waiting
packets; else its position is left empty and they are retire discards. -/
def retireSlice (s : State) (n : Nat) (nosub : Bool) : State :=
  let stand := if nosub then none else freeSpare s
  match findPosition s (· == some n) with
  | none => s.setSv n 3
  | some p =>
    let queue := (s.slice n).queue
    let s := (s.setSlice n { (s.slice n) with queue := [] }).setSv n 2
    let s := s.addRun (.drain n (stand.map (fun sp => (p, sp))) s.clk.ns)
    match stand with
    | some sp =>
      let s := clearSliceMemory s sp
      let s := s.setSlice sp { (s.slice sp) with queue := (s.slice sp).queue ++ queue }
      { s with hn := { s.hn with active := setAt s.hn.active p (some sp), spare := none } }
    | none =>
      let s := { s with hn := { s.hn with active := setAt s.hn.active p none } }
      queue.foldl (fun s j => retireJob (s.count 1088 (some (sideObj j.side j.obj)) 1 j.pkt.attr) j false) s

/-- A code-memory parity error of slice `n`: counted (R105), and PARITY_LIMIT of them within 24 h retire the slice
onto the spare, or are reported (R499). -/
def parityError (s : State) (n : Nat) : State :=
  let s := s.count 69 (some n) 1 {}
  let ts := ((Sparse.get [] s.sv.parity n) ++ [s.clk.ns]).filter (fun t => decide (s.clk.ns < t + dayNs))
  let s := { s with sv := { s.sv with parity := Sparse.set [] s.sv.parity n ts } }
  if s.on F.SY_SVC_CTRL.AUTO_SPARE 0 && svState s n == 0 && decide (s.rd F.SY_SVC_CTRL.PARITY_LIMIT 0 ≤ ts.length) then
    if (freeSpare s).isSome then retireSlice s n false else s.raise 0
  else s

/-- Codes that stand in `shadowEnds` for a fault of the copy, and for a real packet that faulted (R508). -/
def shadowFaulted : Nat := 2 ^ 32
def shadowAbandoned : Nat := 2 ^ 33

/-- What becomes of a packet whose thread faulted: the handler of its coat, or a drop (R100, R101, R496). A shadow
copy ends; a real packet that faults abandons its copy (R508). -/
def faultedPacket (s : State) (n : Nat) (j : Job) (code : Nat) (parse : List Byte) : State :=
  match j.shadow with
  | some k =>
    { s with hn := { s.hn with
        shadowEnds := s.hn.shadowEnds ++ [(k, true, shadowFaulted)], opsUsed := Sparse.set 0 s.hn.opsUsed j.uid 0 } }
  | none =>
    let s := match j.twinShadow with
      | some k => { s with hn := { s.hn with shadowEnds := s.hn.shadowEnds ++ [(k, false, shadowAbandoned)] } }
      | none => s
    let j := { j with twinShadow := none }
    if j.handler ∨ (coatOf s j.slot).faultEntry = 0xFFFFFFFF ∨ svState s n = 2 then
      let src := match j.side with
        | .ingress => j.obj
        | .egress => Tk.source j.pkt.ticket
      let s := s.count 67 (if src < 160 then some (n * 160 + src) else none) 1 j.pkt.attr
      retireJob s j false
    else
      let sl := s.slice n
      s.setSlice n { sl with handlers := sl.handlers ++
        [{ j with handler := true, faultCode := code, record := some parse }] }

/-- A thread faults (R99): it stops at the faulting instruction, its record is written, line 0 of the
supervisor asserts, and a packet gets its coat's handler or is retired as a drop. A steward thread stays
stopped; a stopped supervisor also asserts the other die's line 1 and source 0 (R104). -/
def threadFault (s : State) (t : Tid) (code addr : Nat) (word : BitVec 32) (lm : Nat) : State :=
  let th := s.thread t
  let rec_ := faultRecord s t code addr word lm
  let s := writeFaultRecord s (dieOf t) rec_
  match t, th.job with
  | .packet n _ _, some j =>
    let parse := lmemBytes s (coreOf t) (lmemBase t) 64
    let s := (leaveChannels s t j.uid).setThread t Thread.init
    faultedPacket (if code = 3 then parityError s n else s) n j code parse
  | .steward die core k, _ =>
    let s := (stewardLeaves s t).updThread t (fun th => { th with run := .stopped })
    if core = 0 ∧ k = 0 then (assertLine s (1 - die) 0 0 1).raise 0 else s
  | _, _ => s

end Sys2Proof.Machine
end

