-- ==== Sys2Proof/Machine/Buffers.lean ====
section
/-! DEFINITION. Buffer pools, owners and reserves, buffer admission, and the assay (R274 to R289, R294 to
R298). -/

namespace Sys2Proof.Machine

/-! ### Pools and owners -/

/-- Size class of a pool (R274). -/
def poolClass (p : Nat) : Nat := p / 16

/-- Smallest class that holds a packet (R276). -/
def sizeClass (len : Nat) : Nat := if len ≤ 256 then 0 else if len ≤ 1024 then 1 else if len ≤ 4096 then 2 else 3

/-- Units of a home (R275). -/
def homeUnits (h : Nat) : Nat := if h = 0 then 786432 else if h = 1 then 83886080 else 100663296

/-- A buffer's handle, and its pool (R277). -/
def handleOf (p i : Nat) : Nat := p * 2 ^ 27 + i
def handlePool (h : Nat) : Nat := h / 2 ^ 27

/-- The varton µs count (VT_BUF_CTRL.NOW_US). -/
def nowUs (s : State) : Nat := s.clk.ns / 1000 % 2 ^ 32

/-- The handle of a packet that Fresco builds and that stands in no buffer (R416): no pool's buffer has it. -/
def noBuffer : Nat := 2 ^ 33 - 1

def bufAt (s : State) (h : Nat) : Option Buf := Sparse.get none s.bm.bufs h

def State.setBuf (s : State) (h : Nat) (b : Option Buf) : State :=
  { s with bm := { s.bm with bufs := Sparse.set none s.bm.bufs h b } }

/-- The buffers out that `p` holds of, by handle and buffer. -/
def bufsOf (s : State) (p : Nat → Buf → Bool) : List (Nat × Buf) :=
  s.bm.bufs.filterMap (fun e => e.2.bind (fun b => if p e.1 b then some (e.1, b) else none))

/-- First byte of a buffer in its home (R277). -/
def bufAddr (s : State) (h : Nat) : Nat :=
  let p := handlePool h
  (s.rd F.VT_POOL_GEOM.BASE p + h % 2 ^ 27 * 4 ^ poolClass p) * 256

/-- The stack in which a buffer lies, if it is in one (R275). -/
def bufStack (s : State) (h : Nat) : Option Nat :=
  if h = noBuffer then none
  else
    match s.rd F.VT_POOL_GEOM.HOME (handlePool h) with
    | 0 => none
    | home => some (home - 1)

/-- A packet's bytes are written to its buffer. One in a stack takes whole blocks, which carry no error of what stood there
before (R456). -/
def storeBuf (s : State) (h : Nat) (p : Pkt) : State :=
  match bufStack s h with
  | none => s
  | some st =>
    let a := bufAddr s h
    let s := stackWrite s st a p.data { realm := some (Tk.realm p.ticket) }
    { s with hb := { s.hb with
      bad := (blockList a p.data.length).foldl (fun m b => Sparse.set false m (pairKey st b) false) s.hb.bad } }

/-- A packet's bytes are read from its buffer: the state, and whether no block was uncorrectable (R449, R456, R457). -/
def readBuf (s : State) (h : Nat) (p : Pkt) : State × Bool :=
  match bufStack s h with
  | none => (s, true)
  | some st =>
    let bs := blockList (bufAddr s h) p.data.length
    (readBlocks s st 0 bs { realm := some (Tk.realm p.ticket) }, bs.all (fun b => !blockBad s st (32 * b)))

/-- Buffers of a pool that are out. -/
def poolOut (s : State) (p : Nat) : Nat := (bufsOf s (fun h _ => handlePool h == p)).length

/-- Free buffers of a pool. -/
def poolFree (s : State) (p : Nat) : Nat := s.rd F.VT_POOL_GEOM.COUNT p - poolOut s p

/-- A pool is closed while its home is a stack that is not ACTIVE (R282). -/
def poolClosed (s : State) (p : Nat) : Bool :=
  match s.rd F.VT_POOL_GEOM.HOME p with
  | 0 => false
  | h => s.rd F.HB_STATUS.STATE (h - 1) != 2

/-- CLOSED of VT_POOL_STAT: a pool whose geometry has never been written shows its reset value, 1. -/
def closedShown (s : State) (p : Nat) : Bool := poolClosed s p || s.word .VT_POOL_GEOM p 0 == 0

/-- Free buffers as a walk's visit sees them (R282). -/
def visitFree (s : State) (p : Nat) : Nat :=
  if s.on F.VT_POOL_GEOM.EN p && !poolClosed s p then poolFree s p else 0

/-- An owner's home pool of a class (R283). -/
def homePool (s : State) (o c : Nat) : Nat := 16 * c + s.rd (F.VT_OWNER.HOME c) o

/-- An owner's reserve in a class. -/
def ownerRsv (s : State) (o c : Nat) : Nat :=
  match c with
  | 0 => s.rd F.VT_OWNER.RSV0 o
  | 1 => s.rd F.VT_OWNER.RSV1 o
  | 2 => s.rd F.VT_OWNER.RSV2 o
  | _ => s.rd F.VT_OWNER.RSV3 o

/-- Buffers charged to an owner, and their units, all of them and those of home 0 (R283). -/
def ownerOut (s : State) (o : Nat) : Nat := (bufsOf s (fun _ b => b.owner == o)).length

def ownerUnits (s : State) (o : Nat) : Nat :=
  sumOf ((bufsOf s (fun _ b => b.owner == o)).map (fun e => 4 ^ poolClass (handlePool e.1)))

def ownerSram (s : State) (o : Nat) : Nat :=
  sumOf ((bufsOf s (fun h b => b.owner == o && s.rd F.VT_POOL_GEOM.HOME (handlePool h) == 0)).map
    (fun e => 4 ^ poolClass (handlePool e.1)))

/-- Buffers of class `c` that an owner drew from its reserve (R283). -/
def ownerDrawn (s : State) (o c : Nat) : Nat :=
  (bufsOf s (fun h b => b.owner == o && b.reserve && poolClass (handlePool h) == c)).length

/-- Buffers a pool holds back for reserves (R284). -/
def poolOwed (s : State) (p : Nat) : Nat :=
  let c := poolClass p
  sumOf ((List.range 4096).map (fun o =>
    if homePool s o c = p then ownerRsv s o c - ownerDrawn s o c else 0))

/-- A pool's shared free count (R284). -/
def poolShared (s : State) (p : Nat) : Nat := visitFree s p - poolOwed s p

/-! ### Stacks -/

/-- A walk visits a pool: a stack in idle self-refresh is woken for later walks (R453). -/
def wakePool (s : State) (p : Nat) : State :=
  match s.rd F.VT_POOL_GEOM.HOME p with
  | 0 => s
  | h => if s.rd F.HB_STATUS.STATE (h - 1) = 3 then wakeStack s (h - 1) else s

/-! ### Buffer admission (R286 to R289) -/

/-- A request on its walk: the pool it is to visit, or to share from after a spill. -/
structure BufWalk where
  req : BufReq
  pool : Nat
  atShare : Bool
  result : Option (Option Nat)
  deriving DecidableEq, Repr

/-- The lowest-numbered free buffer of a pool. -/
def freeIndex (s : State) (p : Nat) : Nat :=
  ((List.range (poolOut s p + 1)).find? (fun i => (bufAt s (handleOf p i)).isNone)).getD 0

/-- Take a buffer of a pool for a request (R283, R294). -/
def takeBuf (s : State) (p : Nat) (r : BufReq) (reserve : Bool) : State × Nat :=
  let h := handleOf p (freeIndex s p)
  let s := s.count 1235 (some r.owner) 1 { realm := some r.realm, tc := some r.tc }
  (s.setBuf h (some ⟨r.owner, reserve, nowUs s, r.port, false, 1, 0⟩), h)

/-- Attributes of a count tied to an owner (R561). -/
def ownerAttr (s : State) (o : Nat) : Attr := { realm := some (s.rd F.VT_OWNER.REALM o) }

/-- SPILL_EN has effect: from SRAM to a stack (VT_POOL_POLICY). -/
def spillOn (s : State) (p : Nat) : Bool :=
  s.on F.VT_POOL_POLICY.SPILL_EN p && s.rd F.VT_POOL_GEOM.HOME p == 0 &&
    s.rd F.VT_POOL_GEOM.HOME (s.rd F.VT_POOL_POLICY.SPILL p) != 0

/-- Step 1 of a visit to pool `p`, the reserve draw (R286, R287), for the walks that are to visit it. -/
def drawReserve (s : State) (p : Nat) (w : BufWalk) : State × BufWalk :=
  let o := w.req.owner
  let c := poolClass p
  if w.pool = p ∧ w.atShare = false ∧ w.result.isNone ∧ homePool s o c = p ∧ ownerDrawn s o c < ownerRsv s o c ∧
      1 ≤ visitFree s p then
    let r := takeBuf s p w.req true
    (r.1, { w with result := some (some r.2) })
  else (s, w)

/-- Steps 2 and 3 of a visit to pool `p` (R286), for the walks that have drawn no reserve there. -/
def visitSteps (s : State) (p : Nat) (w : BufWalk) : State × BufWalk :=
  if w.pool ≠ p ∨ w.atShare = true ∨ w.result.isSome then (s, w)
  else
    let o := w.req.owner
    let c := poolClass p
    if s.rd F.VT_OWNER.LIMIT o < ownerUnits s o + 4 ^ c then
      (s.count 322 (some (o * 25 + w.req.port)) 1 (ownerAttr s o), { w with result := some none })
    else if spillOn s p ∧ (s.rd F.VT_OWNER.SRAM_CAP o < ownerSram s o + 4 ^ c ∨
        poolShared s p < s.rd F.VT_POOL_POLICY.SPILL_LEVEL p) then
      (s.count 325 (some o) 1 (ownerAttr s o),
        { w with pool := s.rd F.VT_POOL_POLICY.SPILL p, atShare := true })
    else (s, { w with atShare := true })

/-- The requester ports that win `k` shared buffers among `ports` (rising), and R afterwards (R288). -/
def shareWinners (even : Bool) (r k : Nat) (ports : List Nat) : List Nat × Nat :=
  if ports.length ≤ k then (ports, r)
  else if even then (ports.take k, r)
  else
    let turn := ports.filter (r ≤ ·) ++ ports.filter (· < r)
    let win := turn.take k
    (win, match win.getLast? with
      | some q => (q + 1) % 25
      | none => r)

/-- Step 5: the walk leaves pool `p` for its fall-back pool, or is refused (R286). -/
def fallBack (s : State) (p : Nat) (w : BufWalk) : State × BufWalk :=
  if s.on F.VT_POOL_POLICY.FB_EN p then
    (s.count 324 (some p) 1 {},
      { w with pool := 16 * (poolClass p + 1) + s.rd F.VT_POOL_POLICY.FALLBACK p, atShare := false })
  else
    (s.count 323 (some (w.req.owner * 25 + w.req.port)) 1 (ownerAttr s w.req.owner),
      { w with result := some none })

/-- Is the present cycle of the buffer manager even (R288)? It runs on the 1.6 GHz Varton core clock. -/
def evenCycle (s : State) : Bool := decide (s.clk.ns * 8 / 5 % 2 = 0)

/-- Apply a step to each walk in requester port order. -/
def mapWalks (f : State → BufWalk → State × BufWalk) (s : State) : List BufWalk → State × List BufWalk
  | [] => (s, [])
  | w :: ws =>
    let a := f s w
    let b := mapWalks f a.1 ws
    (b.1, a.2 :: b.2)

/-- Does a walk stand at pool `p`? -/
def walkAt (ws : List BufWalk) (p : Nat) : Bool := ws.any (fun w => w.pool == p && w.result.isNone)

/-- Settle one pool (R287): reserve draws, then the shared buffers, then the losers go on. -/
def settlePool (s : State) (ws : List BufWalk) (p : Nat) : State × List BufWalk :=
  let d := mapWalks (fun s w => drawReserve s p w) s ws
  let a := mapWalks (fun s w => visitSteps s p w) d.1 d.2
  let want := a.2.filter (fun w => w.pool == p && w.atShare && w.result.isNone)
  let k := poolShared a.1 p
  let r := Sparse.get 0 a.1.bm.rotate p
  let win := shareWinners (evenCycle s) r k (want.map (·.req.port))
  let s1 := { a.1 with bm := { a.1.bm with rotate := Sparse.set 0 a.1.bm.rotate p win.2 } }
  let b := mapWalks (fun s w =>
    if w.pool = p ∧ w.atShare = true ∧ w.result.isNone then
      if win.1.contains w.req.port then
        let t := takeBuf s p w.req false
        (t.1, { w with result := some (some t.2) })
      else fallBack s p w
    else (s, w)) s1 a.2
  b

/-- The order in which the pools are settled (R287): by class, then home, then number. -/
def settleOrder (s : State) : List Nat :=
  (List.range 4).flatMap (fun c => (List.range 3).flatMap (fun h =>
    ((List.range 16).map (16 * c + ·)).filter (fun p => s.rd F.VT_POOL_GEOM.HOME p == h)))

/-- A request list with one request a port at most, lowest port first. -/
def orderReqs (reqs : List BufReq) : List BufReq :=
  (List.range 25).filterMap (fun p => reqs.find? (fun r => r.port == p))

/-- Decide the requests of one cycle (R286 to R289); oversize packets are discarded before they ask (R276). -/
def decideReqs (s : State) (reqs : List BufReq) : State × List Decided :=
  let rs := orderReqs reqs
  let ws := rs.map (fun r => (⟨r, homePool s r.owner (sizeClass r.len), false,
    if 16384 < r.len then some none else none⟩ : BufWalk))
  let s := rs.foldl (fun s r =>
    if 16384 < r.len then s.count 320 (some r.port) 1 (ownerAttr s r.owner) else s) s
  let out := (settleOrder s).foldl (fun a p =>
    if walkAt a.1.2 p then (settlePool a.1.1 a.1.2 p, p :: a.2) else a) ((s, ws), [])
  (out.2.foldl wakePool out.1.1, out.1.2.map (fun w => ⟨w.req.port, w.req.owner, w.req.len, w.result.getD none⟩))

/-- A requester's buffer: what its decided request gave, else the decision of a cycle of its own. -/
def getBuffer (s : State) (r : BufReq) : State × Option Nat :=
  match splitAtFirst (fun (d : Decided) => d.port == r.port && d.owner == r.owner && d.len == r.len)
      s.bm.decided with
  | some (pre, d, post) => ({ s with bm := { s.bm with decided := pre ++ post } }, d.handle)
  | none =>
    let d := decideReqs s [r]
    (d.1, (d.2.head?).bind (·.handle))

/-- A copy gives up its share of a buffer; the last share returns it to its pool (R279). -/
def releaseBuf (s : State) (h : Nat) : State :=
  match bufAt s h with
  | none => s
  | some b => s.setBuf h (if b.shares ≤ 1 then none else some { b with shares := b.shares - 1 })

/-- One more copy shares a buffer (R279). -/
def shareBuf (s : State) (h : Nat) : State :=
  match bufAt s h with
  | none => s
  | some b => s.setBuf h (some { b with shares := b.shares + 1 })

/-- A copy has been sent; its share returns when its last byte has gone (R278). -/
def leaveBuf (s : State) (h : Nat) : State :=
  match bufAt s h with
  | none => s
  | some b => s.setBuf h (some { b with leaving := b.leaving + 1 })

/-- BUFFER_REQUEST. The requests of one cycle are decided (R286 to R288). -/
def execBufferRequest (reqs : List BufReq) (s : State) : Host.Outcome State Fault Refusal :=
  if s.clk.diesOn then
    let d := decideReqs s reqs
    .next { d.1 with bm := { d.1.bm with decided := d.1.bm.decided ++ d.2 } }
  else .next s

/-- BUFFER_RETURN. The last byte of a sent copy has gone, or the packet whose request took the buffer is
discarded: the buffer returns with its last share (R278, R279). -/
def execBufferReturn (handle : Nat) (s : State) : Host.Outcome State Fault Refusal :=
  match bufAt s handle with
  | none => .next s
  | some b =>
    if 0 < b.leaving then
      .next (releaseBuf (s.setBuf handle (some { b with leaving := b.leaving - 1 })) handle)
    else if s.bm.decided.any (fun d => d.handle == some handle) then
      .next (releaseBuf { s with bm := { s.bm with
        decided := removeFirst (fun d => d.handle == some handle) s.bm.decided } } handle)
    else .next s

/-! ### The assay (R294 to R298) -/

/-- Age of a buffer, in µs; a stale one is as old as can be (R295, R296). -/
def bufAge (s : State) (b : Buf) : Nat :=
  if b.stale then 2 ^ 32 - 1 else (nowUs s + 2 ^ 32 - b.allocUs) % 2 ^ 32

/-- Bin of an age at bin base `B` (R295). -/
def assayBin (base age : Nat) : Nat :=
  ((List.range 7).find? (fun b => decide (age < 4 ^ b * base))).getD 7

/-- The assay visits a buffer that is out: it goes to its owner's bin, and is marked stale at 2^31 µs (R295, R296). -/
def visitBuf (s : State) (handle : Nat) (b : Buf) : State :=
  let b := { b with stale := b.stale || decide (2 ^ 31 ≤ bufAge s b) }
  let s := s.setBuf handle (some b)
  let age := bufAge s b
  let bin := assayBin (2 ^ s.bm.base) age
  let best := match Sparse.get none s.bm.oldest b.owner with
    | some (a, h) => if a < age then (age, handle) else (a, h)
    | none => (age, handle)
  { s with bm := { s.bm with
    bins := Sparse.upd 0 s.bm.bins (b.owner * 8 + bin) (· + 1)
    oldest := Sparse.set none s.bm.oldest b.owner (some best) } }

/-- The running pass goes on to handle `last`, pool by pool and index by index: it visits every buffer of the enabled
pools on its way that is out (R294). -/
def assayTo (s : State) (last : Nat) : State :=
  let s := (bufsOf s (fun h _ => decide (s.bm.cursor ≤ h ∧ h ≤ last) && s.on F.VT_POOL_GEOM.EN (handlePool h))).foldl
    (fun s e => visitBuf s e.1 e.2) s
  { s with bm := { s.bm with cursor := max s.bm.cursor (last + 1) } }

/-- ASSAY_VISIT. The pass reaches a buffer (R294 to R296). -/
def execAssayVisit (handle : Nat) (s : State) : Host.Outcome State Fault Refusal :=
  .next (assayTo s handle)

/-- An owner's results of a pass (R297). -/
def assayLine (s : State) (o : Nat) : Option AssayLine :=
  match Sparse.get none s.bm.oldest o with
  | none => none
  | some (age, h) => some
    { bins := (List.range 8).map (fun b => Sparse.get 0 s.bm.bins (o * 8 + b))
      oldest := age
      handle := h
      leakNow := decide (s.rd F.VT_OWNER.LEAK_MS o * 1000 < age) }

/-- LEAK_NOW of an owner, as last published. -/
def leakNow (s : State) (o : Nat) : Bool :=
  match Sparse.get none s.bm.published o with
  | some l => l.leakNow
  | none => false

/-- ASSAY_PASS_END. The pass visits what is left of it; one that has taken more than 2 s is a background overrun (R294,
R517). The pass's results are published in one cycle; an owner whose LEAK_NOW stands gets LEAK, and
one newly so asserts its line, `lines` giving owner and line, on the Varton supervisor (R297, R298). -/
def execAssayPassEnd (lines : List (Nat × Nat)) (s : State) : Host.Outcome State Fault Refusal :=
  let s := assayTo s (2 ^ 33)
  let s := if s.bm.passAt + 2000000000 < s.clk.ns then overrun s 4 else s
  let owners := s.bm.oldest.map (·.1)
  let pub := owners.foldl (fun m o => Sparse.set none m o (assayLine s o)) []
  let before := leakNow s
  let s := { s with bm := { s.bm with
    published := pub, bins := [], oldest := [], base := s.rd F.VT_BUF_CTRL.HIST_BASE 0
    cursor := 0, passAt := s.clk.ns } }
  let s := s.wr F.VT_ASSAY_STATUS.PASSES 0 (s.rd F.VT_ASSAY_STATUS.PASSES 0 + 1)
  .next (owners.foldl (fun s o =>
    if leakNow s o then
      let s := s.wr F.VT_ASSAY.LEAK o 1
      if before o then s
      else match lines.find? (fun l => l.1 == o) with
        | some l => assertLine s 1 0 0 l.2
        | none => s
    else s) s)

end Sys2Proof.Machine
end

