-- ==== Sys2Proof/Machine/Queues.lean ====
section
/-! DEFINITION. Queues, the scheduling hierarchy, deficit round robin, shapers and queue admission (R290 to
R293, R300, R301, R312 to R329). -/

namespace Sys2Proof.Machine

/-! ### Queues (R300, R301) -/

def voqOf (s : State) (q : Nat) : List Queued := Sparse.get [] s.q.voqs q
def eqOf (s : State) (e : Nat) : List Queued := Sparse.get [] s.q.eqs e

/-- A queue becomes non-empty, from which time the sweep has to examine its head, or empty (R292). -/
def ageMark (s : State) (k : Nat) (before after : List Queued) : Sparse (Option Nat) :=
  if after.isEmpty then Sparse.set none s.q.ageSeen k none
  else if before.isEmpty then Sparse.set none s.q.ageSeen k (some s.clk.ns)
  else s.q.ageSeen

def State.setVoq (s : State) (q : Nat) (l : List Queued) : State :=
  { s with q := { s.q with
    voqs := Sparse.set [] s.q.voqs q l
    ageSeen := ageMark s q (voqOf s q) l } }

def State.setEq (s : State) (e : Nat) (l : List Queued) : State :=
  { s with q := { s.q with
    eqs := Sparse.set [] s.q.eqs e l
    ageSeen := ageMark s (524288 + e) (eqOf s e) l } }

/-- LENGTH of a queued packet. -/
def Queued.len (q : Queued) : Nat := q.pkt.data.length

/-- Bytes of a queue's packets: its DEPTH. -/
def depthOf (l : List Queued) : Nat := sumOf (l.map Queued.len)

/-- VOQ backlog (R313). -/
def voqBacklog (s : State) : Nat := sumOf (s.q.voqs.map (fun e => depthOf e.2))

/-! ### The hierarchy (R317 to R319) -/

/-- Scheduling elements: of the egress side, and of the VOQ side's fixed tree. -/
inductive Elem where
  | port (d : Nat)
  | node (n : Nat)
  | eq (e : Nat)
  | dest (d : Nat)
  | voq (q : Nat)
  | root
  deriving DecidableEq, Repr

/-- An element's number, by which rounds and pointers name it. -/
def Elem.code : Elem → Nat
  | .port d => 8 * d
  | .node n => 8 * n + 1
  | .eq e => 8 * e + 2
  | .dest d => 8 * d + 3
  | .voq q => 8 * q + 4
  | .root => 5

/-- The element of a number. -/
def elemOf (c : Nat) : Elem :=
  match c % 8 with
  | 0 => .port (c / 8)
  | 1 => .node (c / 8)
  | 2 => .eq (c / 8)
  | 3 => .dest (c / 8)
  | 4 => .voq (c / 8)
  | _ => .root

/-- The parent a node or egress queue names, when it stands at PARENT_LEVEL (R318). -/
def namedParent (s : State) (pl p : Nat) : Option Elem :=
  if pl = 0 then some (.port p)
  else if s.rd F.VT_NODE.LEVEL p = pl then some (.node p)
  else none

/-- An element's parent. -/
def parentOf (s : State) : Elem → Option Elem
  | .node n => namedParent s (s.rd F.VT_NODE.PARENT_LEVEL n) (s.rd F.VT_NODE.PARENT n)
  | .eq e => namedParent s (s.rd F.VT_EQ.PARENT_LEVEL e) (s.rd F.VT_EQ.PARENT e)
  | .dest _ => some .root
  | .voq q => if q % 8 = 7 then some .root else some (.dest (q / 8))
  | .port _ => none
  | .root => none

/-- EN of an element; the VOQ side has none. -/
def elemEn (s : State) : Elem → Bool
  | .port d => s.on F.VT_PORT.EN d
  | .node n => s.on F.VT_NODE.EN n
  | .eq e => s.on F.VT_EQ.EN e
  | _ => true

/-- The chain of an element upward, itself first. -/
def chainOf (s : State) : Nat → Elem → List Elem
  | 0, _ => []
  | fuel + 1, e =>
    match parentOf s e with
    | some p => e :: chainOf s fuel p
    | none => [e]

/-- The port scheduler at the top of an element's chain (R301). -/
def chainPort (s : State) (e : Elem) : Option Nat :=
  match (chainOf s 6 e).getLast? with
  | some (.port d) => some d
  | _ => none

/-- ATTACHED (R318). -/
def attached (s : State) (e : Elem) : Bool :=
  match e with
  | .dest _ | .voq _ | .root => true
  | _ => (chainPort s e).isSome && (chainOf s 6 e).all (elemEn s)

/-- Bytes queued beneath an egress element. -/
def elemDepth (s : State) (e : Elem) : Nat :=
  match e with
  | .eq n => depthOf (eqOf s n)
  | .voq q => depthOf (voqOf s q)
  | .dest d => sumOf ((List.range 7).map (fun c => depthOf (voqOf s (8 * d + c))))
  | .root => voqBacklog s
  | _ => sumOf (s.q.eqs.map (fun x => if (chainOf s 6 (.eq x.1)).contains e then depthOf x.2 else 0))

/-- DEPTH of port `d`. -/
def portDepth (s : State) (d : Nat) : Nat := elemDepth s (.port d)

/-! ### Shapers (R325 to R329) -/

def ShaperSt.init : ShaperSt := ⟨0, none⟩

def shaperAt (s : State) (h : Nat) : ShaperSt := Sparse.get ShaperSt.init s.q.shapers h

def State.setShaper (s : State) (h : Nat) (v : ShaperSt) : State :=
  { s with q := { s.q with shapers := Sparse.set ShaperSt.init s.q.shapers h v } }

/-- The shaper an element names with SH_EN. -/
def elemShaper (s : State) (e : Elem) : Option Nat :=
  match e with
  | .port d => if s.on F.VT_PORT.SH_EN d then some (s.rd F.VT_PORT.SHAPER d) else none
  | .node n => if s.on F.VT_NODE.SH_EN n then some (s.rd F.VT_NODE.SHAPER n) else none
  | .eq e => if s.on F.VT_EQ.SH_EN e then some (s.rd F.VT_EQ.SHAPER e) else none
  | .dest d => if s.on F.VT_DEST.SH_EN d then some (s.rd F.VT_DEST.SHAPER d) else none
  | .voq q => if s.on F.VT_VOQ.SH_EN q then some (s.rd F.VT_VOQ.SHAPER q) else none
  | .root => none

/-- An element's shaper is eligible, or it has none (R320). -/
def shaperOpen (s : State) (e : Elem) : Bool :=
  match elemShaper s e with
  | some h => (shaperAt s h).wheel.isNone
  | none => true

/-- The first level-0 slot boundary at or after ET = TAT − τ, where TAT − τ is later than `now` (R327, R328):
times in 2⁻¹⁶ ns, boundaries every 2.5 ns. -/
def wheelSlot (now tat rate burst : Nat) : Option Nat :=
  let tau := burst * 1000000 * 65536
  if tat * rate ≤ now * rate + tau then none
  else some (((tat * rate - tau) * 2 + 5 * 65536 * rate - 1) / (5 * 65536 * rate))

/-- A packet of `len` bytes is sent through an element that names entry `h` (R326, R327). -/
def chargeShaper (s : State) (h len : Nat) : State :=
  let rate := s.rd F.VT_SHAPER.RATE h
  let now := s.clk.ns * 65536
  let inc := ((len + s.rd F.VT_SHAPER.ADJ h) * 1000000 * 65536 + rate - 1) / rate
  let tat := max (shaperAt s h).tat now + inc
  s.setShaper h ⟨tat, wheelSlot now tat rate (s.rd F.VT_SHAPER.BURST h)⟩

/-- The entry boundaries at which the wheel next releases: the least among the entries on it. -/
def nextBoundary (s : State) : Option Nat :=
  match s.q.shapers.filterMap (fun e => e.2.wheel) with
  | [] => none
  | b :: bs => some (max (s.q.boundary + 1) (bs.foldl min b))

/-- WHEEL_RELEASE. The next slot boundary at which an entry is due comes: up to 16 due entries are released,
lowest number first; an entry released after its own boundary is a late release (R328, R329). -/
def execWheelRelease (s : State) : Host.Outcome State Fault Refusal :=
  match nextBoundary s with
  | none => .next s
  | some b =>
    let s := reachTime s ((5 * b + 1) / 2)
    let due := (s.q.shapers.filter (fun e => match e.2.wheel with
      | some x => decide (x ≤ b)
      | none => false)).take 16
    let s := due.foldl (fun s e =>
      let s := s.setShaper e.1 { e.2 with wheel := none }
      if e.2.wheel = some b then s else s.count 453 none 1 {}) s
    .next { s with q := { s.q with boundary := b } }

/-! ### Rounds (R321, R324) -/

def ElemSt.init : ElemSt := ⟨0, true⟩

def elemSt (s : State) (c : Nat) : ElemSt := Sparse.get ElemSt.init s.q.elems c

def State.setElem (s : State) (c : Nat) (v : ElemSt) : State :=
  { s with q := { s.q with elems := Sparse.set ElemSt.init s.q.elems c v } }

/-- The VOQ tree's root keeps its rounds in number order, over the destinations and VOQs that hold packets. -/
def rootRound (s : State) (prio : Nat) : List Nat :=
  if prio = 1 then
    s.q.voqs.filterMap (fun e => if e.1 % 8 = 7 then some (Elem.code (.voq e.1)) else none)
  else
    (s.q.voqs.filterMap (fun e => if e.1 % 8 = 7 then none else some (Elem.code (.dest (e.1 / 8))))).eraseDups

/-- Children of a parent at a priority, in round order. -/
def roundOf (s : State) (parent prio : Nat) : List Nat :=
  match Sparse.get none s.q.rounds (pairKey parent prio) with
  | some l => l
  | none =>
    match elemOf parent with
    | .root => rootRound s prio
    | .dest d => if prio = 0 then (List.range 7).map (fun c => Elem.code (.voq (8 * d + c))) else []
    | _ => []

def roundPtr (s : State) (parent prio : Nat) : Option Nat := Sparse.get none s.q.ptrs (pairKey parent prio)

def State.setPtr (s : State) (parent prio : Nat) (c : Option Nat) : State :=
  { s with q := { s.q with ptrs := Sparse.set none s.q.ptrs (pairKey parent prio) c } }

/-- A round read from its pointer on. The root's pointer names a number, another's names a child. -/
def fromPtr (parent : Nat) (l : List Nat) (ptr : Option Nat) : List Nat :=
  match ptr with
  | none => l
  | some p =>
    match elemOf parent with
    | .root => l.filter (p ≤ ·) ++ l.filter (· < p)
    | _ =>
      match splitAtFirst (· == p) l with
      | some (pre, x, post) => x :: (post ++ pre)
      | none => l

/-- The pointer just past a child. -/
def pastChild (s : State) (parent prio c : Nat) : Option Nat :=
  match elemOf parent with
  | .root => some (c + 1)
  | _ =>
    match fromPtr parent (roundOf s parent prio) (some c) with
    | _ :: x :: _ => some x
    | _ => none

/-- PRIO of an element among its parent's children. -/
def elemPrio (s : State) (e : Elem) : Nat :=
  match e with
  | .node n => s.rd F.VT_NODE.PRIO n
  | .eq n => s.rd F.VT_EQ.PRIO n
  | .voq q => if q % 8 = 7 then 1 else s.rd F.VT_VOQ.PRIO q
  | _ => 0

/-- The place, parent and priority, an element stands in by its register, whether or not it is attached. -/
def elemPlace (s : State) (e : Elem) : Option Nat :=
  match e with
  | .node n => some (pairKey
      (if s.rd F.VT_NODE.PARENT_LEVEL n = 0 then Elem.code (.port (s.rd F.VT_NODE.PARENT n))
        else Elem.code (.node (s.rd F.VT_NODE.PARENT n))) (elemPrio s e))
  | .eq n => some (pairKey
      (if s.rd F.VT_EQ.PARENT_LEVEL n = 0 then Elem.code (.port (s.rd F.VT_EQ.PARENT n))
        else Elem.code (.node (s.rd F.VT_EQ.PARENT n))) (elemPrio s e))
  | .voq q => if q % 8 = 7 then none else some (pairKey (Elem.code (.dest (q / 8))) (elemPrio s e))
  | _ => none

/-- Move an element out of the round it stood in and to the end of its new place's round (R324). `was` is its
place before the write. -/
def moveElem (s : State) (e : Elem) (was : Option Nat) : State :=
  let c := e.code
  let dflt (k : Nat) : List Nat :=
    match Sparse.get none s.q.rounds k with
    | some l => l
    | none =>
      match e with
      | .voq q => if k = pairKey (Elem.code (.dest (q / 8))) 0 then
          (List.range 7).map (fun i => Elem.code (.voq (8 * (q / 8) + i))) else []
      | _ => []
  let s := match was with
    | some k => { s with q := { s.q with rounds := Sparse.set none s.q.rounds k (some ((dflt k).filter (· != c))) } }
    | none => s
  match elemPlace s e with
  | some k =>
    let old := match Sparse.get none s.q.rounds k with
      | some l => l
      | none => dflt k
    { s with q := { s.q with rounds := Sparse.set none s.q.rounds k (some (old.filter (· != c) ++ [c])) } }
  | none => s

/-! ### Age (R290 to R293) -/

/-- Age of a queued packet, in µs. -/
def Queued.age (s : State) (q : Queued) : Nat := (nowUs s + 2 ^ 32 - q.enqUs) % 2 ^ 32

/-- Object index of a queue (R596). -/
def queueObj : QueueId → Nat
  | .voq q => q
  | .eq e => 524288 + e

def queueList (s : State) : QueueId → List Queued
  | .voq q => voqOf s q
  | .eq e => eqOf s e

def State.setQueue (s : State) (q : QueueId) (l : List Queued) : State :=
  match q with
  | .voq n => s.setVoq n l
  | .eq n => s.setEq n l

def ageLimit (s : State) : QueueId → Nat
  | .voq q => s.rd F.VT_VOQ_AGE.LIMIT_US q
  | .eq e => s.rd F.VT_EQ_AGE.LIMIT_US e

def elemQueue : Elem → Option QueueId
  | .voq q => some (.voq q)
  | .eq e => some (.eq e)
  | _ => none

def queueElem : QueueId → Elem
  | .voq q => .voq q
  | .eq e => .eq e

/-- A packet's age exceeds its queue's limit. -/
def tooOld (s : State) (q : QueueId) (x : Queued) : Bool := decide (ageLimit s q < x.age s)

/-- An element that holds nothing loses its deficit, takes a new turn, and its parent's pointer moves past it
(R322). -/
def settleElem (s : State) (e : Elem) : State :=
  if elemDepth s e ≠ 0 then s
  else
    let s := s.setElem e.code ElemSt.init
    match parentOf s e with
    | some p =>
      if roundPtr s p.code (elemPrio s e) = some e.code then
        s.setPtr p.code (elemPrio s e) (pastChild s p.code (elemPrio s e) e.code)
      else s
    | none => s

/-- Settle an element and those above it, below the top. -/
def settleChain (s : State) (e : Elem) : State :=
  ((chainOf s 6 e).dropLast).foldl settleElem s

/-- A copy is lost on an egress queue under port `d`: Fresco sums those of port scheduler 160 (R398, R404). -/
def frescoLoss (s : State) (d : Nat) : State :=
  if d = 160 then { s with fr := { s.fr with drops := s.fr.drops + 1 } } else s

/-- A frame-age discard is counted as such at hallmarks 2 and 3, as a tail drop at hallmark 1 (R293). -/
def countAged (s : State) (q : QueueId) (x : Queued) : State :=
  frescoLoss (s.count (if s.hallmark = 1 then 451 else 326) (some (queueObj q)) 1 x.pkt.attr)
    ((chainPort s (queueElem q)).getD 0)

/-- Discard the head of a queue for its age (R291 to R293). -/
def discardHead (s : State) (q : QueueId) : State :=
  match queueList s q with
  | [] => s
  | x :: xs => settleChain (releaseBuf (countAged (s.setQueue q xs) q x) x.handle) (queueElem q)

/-- Discard a queue's heads while their age exceeds the limit. -/
def discardAged (q : QueueId) : Nat → State → State
  | 0, s => s
  | fuel + 1, s =>
    match queueList s q with
    | [] => s
    | x :: _ => if tooOld s q x then discardAged q fuel (discardHead s q) else s

/-! ### Choosing (R320 to R323) -/

/-- What a choice comes to: nothing eligible, a queue whose head is too old, or a packet with the path of
elements to it from the top's child down. -/
inductive Pick where
  | nothing
  | aged (q : QueueId)
  | head (path : List Nat) (x : Queued)

/-- Eligibility (R320). `accepts` says whether a destination accepts cells, `granted` whether a class-7 VOQ
holds a grant (R319). -/
def eligible (accepts granted : State → Nat → Bool) : Nat → State → Elem → Bool
  | 0, _, _ => false
  | fuel + 1, s, e =>
    attached s e && shaperOpen s e &&
    (match e with
      | .eq n => !(eqOf s n).isEmpty
      | .voq q => !(voqOf s q).isEmpty && (q % 8 != 7 || granted s (q / 8))
      | .dest d => accepts s d && ((roundOf s e.code 1) ++ (roundOf s e.code 0)).any
          (fun c => eligible accepts granted fuel s (elemOf c))
      | _ => ((roundOf s e.code 1) ++ (roundOf s e.code 0)).any
          (fun c => eligible accepts granted fuel s (elemOf c)))

def elemQuantum (s : State) : Elem → Nat
  | .node n => s.rd F.VT_NODE.QUANTUM n
  | .eq e => s.rd F.VT_EQ.QUANTUM e
  | .dest d => s.rd F.VT_DEST.QUANTUM d
  | .voq q => s.rd F.VT_VOQ.QUANTUM q
  | _ => 0

/-- The child at a round's pointer holds packets and is not eligible: it keeps the pointer (R322). -/
def keepsPtr (s : State) (order : List Nat) (c : Nat) : Bool :=
  match order.head? with
  | some h => h != c && elemDepth s (elemOf h) != 0
  | none => false

/-- A parent's choice among its eligible children of one priority (R321); `pick` chooses beneath a child. -/
def drrLoop (pick : State → Nat → State × Pick) (elig : State → Nat → Bool) (parent prio : Nat) :
    Nat → State → State × Pick
  | 0, s => (s, .nothing)
  | fuel + 1, s =>
    let order := fromPtr parent (roundOf s parent prio) (roundPtr s parent prio)
    match order.filter (elig s) with
    | [] => (s, .nothing)
    | c :: rest =>
      let st := elemSt s c
      let st := if st.newTurn then { dc := st.dc + 16 * elemQuantum s (elemOf c), newTurn := false } else st
      let r := pick ((if keepsPtr s order c then s else s.setPtr parent prio (some c)).setElem c st) c
      match r.2 with
      | .head path x =>
        if x.len ≤ (elemSt r.1 c).dc then (r.1, .head (c :: path) x)
        else
          let s := r.1.setElem c { (elemSt r.1 c) with newTurn := true }
          drrLoop pick elig parent prio fuel (s.setPtr parent prio (some (rest.headD c)))
      | other => (r.1, other)

/-- The choice beneath an element (R321). -/
def choose (accepts granted : State → Nat → Bool) : Nat → State → Nat → State × Pick
  | 0, s, _ => (s, .nothing)
  | fuel + 1, s, c =>
    match elemQueue (elemOf c) with
    | some q =>
      match queueList s q with
      | [] => (s, .nothing)
      | x :: _ => if tooOld s q x then (s, .aged q) else (s, .head [] x)
    | none =>
      let elig (s : State) (k : Nat) : Bool := eligible accepts granted 6 s (elemOf k)
      let prio := if (roundOf s c 1).any (elig s) then 1 else 0
      drrLoop (choose accepts granted fuel) elig c prio (((roundOf s c prio).length + 1) * 1026) s

/-- Choose, discarding what is found too old (R291), for at most `fuel` discards. -/
def decideSend (accepts granted : State → Nat → Bool) (top : Nat) : Nat → State → State × Pick
  | 0, s => (s, .nothing)
  | fuel + 1, s =>
    if eligible accepts granted 6 s (elemOf top) then
      let r := choose accepts granted 6 s top
      match r.2 with
      | .aged q => decideSend accepts granted top fuel (discardHead r.1 q)
      | _ => r
    else (s, .nothing)

/-- Packets queued on one side, an upper bound of what one decision can discard. -/
def queuedCount (m : Sparse (List Queued)) : Nat := sumOf (m.map (fun e => e.2.length))

/-- A chosen packet is sent: it leaves its queue, its path is charged, shapers included (R322, R326). `top` is
charged by its shaper alone. -/
def chargePath (s : State) (top : Nat) (path : List Nat) (x : Queued) : State :=
  let s := match path.getLast? with
    | some c =>
      match elemQueue (elemOf c) with
      | some q => s.setQueue q ((queueList s q).drop 1)
      | none => s
    | none => s
  let s := (top :: path).foldl (fun s c =>
    match elemShaper s (elemOf c) with
    | some h => chargeShaper s h x.len
    | none => s) s
  let s := path.foldl (fun s c => s.setElem c { (elemSt s c) with dc := (elemSt s c).dc - x.len }) s
  path.reverse.foldl (fun s c => settleElem s (elemOf c)) s

/-! ### Queue admission (R312 to R316) -/

/-- Depth limit, in bytes, of a threshold profile for a colour (R312). -/
def depthLimit (s : State) (t colour : Nat) : Nat :=
  1024 * (match colour with
    | 1 => s.rd F.VT_TPROF.Y_MAX t
    | 2 => s.rd F.VT_TPROF.R_MAX t
    | _ => s.rd F.VT_TPROF.G_MAX t)

/-- The threshold check (R312). -/
def fits (s : State) (q : QueueId) (p : Pkt) : Bool :=
  let t := match q with
    | .voq n => s.rd F.VT_VOQ.TPROF n
    | .eq n => s.rd F.VT_EQ.TPROF n
  decide (depthOf (queueList s q) + p.data.length ≤ depthLimit s t (Tk.colour p.ticket))

/-- Charge `n` bytes to the remaining quotas of classes 0 to 6 in turn (R315). -/
def qChargeLower (a : QAdmSt) (n : Nat) : QAdmSt :=
  ((List.range 7).foldl (fun (x : QAdmSt × Nat) c =>
    let k := min (x.1.quota.getD c 0 - x.1.used.getD c 0) x.2
    ({ x.1 with used := modifyAt (· + k) x.1.used c }, x.2 - k)) (a, n)).1

/-- The shedding check: admission with what it charges, or shed (R315). -/
def qAdmit (a : QAdmSt) (tc n : Nat) : Option QAdmSt :=
  if !a.shedding then some a
  else if a.used.getD tc 0 < a.quota.getD tc 0 then some { a with used := modifyAt (· + n) a.used tc }
  else if tc = 7 ∧ (List.range 7).any (fun c => decide (a.used.getD c 0 < a.quota.getD c 0)) = true then
    some (qChargeLower a n)
  else none

/-- Quotas from the budget and the arrivals, from class 7 down (R314). -/
def qQuotas (b : Nat) (a : List Nat) : List Nat :=
  ((List.range 8).foldl (fun (x : List Nat × Nat) i =>
    let q := min (a.getD (7 - i) 0) x.2
    (q :: x.1, x.2 - q)) ([], b)).1

/-- What an epoch's end makes of VOQ admission (R313, R314). -/
def qEpoch (a : QAdmSt) (backlog on off : Nat) : QAdmSt :=
  let calm := if backlog ≤ off then a.calm + 1 else 0
  let shedding := if a.shedding then decide (calm < 16) else decide (on ≤ max a.peak backlog)
  { epoch := a.epoch + 1
    shedding := shedding
    peak := backlog
    calm := if a.shedding then calm else 0
    sent := 0
    arrived := List.replicate 8 0
    quota := if shedding then qQuotas (a.sent - (backlog - off) / 16) a.arrived else List.replicate 8 0
    used := List.replicate 8 0 }

/-- QUEUE_EPOCH_END. A Varton epoch of 1,024 ns ends (R313, R314). -/
def execQueueEpochEnd (s : State) : Host.Outcome State Fault Refusal :=
  if !s.clk.diesOn then .next s
  else
    let s := reachTime s ((s.q.adm.epoch + 1) * 1024)
    let a := qEpoch s.q.adm (voqBacklog s) (s.rd F.VT_QADM_CTRL.QSHED_ON 0 * 2 ^ 20)
      (s.rd F.VT_QADM_CTRL.QSHED_OFF 0 * 2 ^ 20)
    .next (State.wr { s with q := { s.q with adm := a } } F.VT_QADM_CTRL.SHEDDING 0 (flag a.shedding))

end Sys2Proof.Machine
end

