-- ==== Sys2Proof/Machine/Fabric.lean ====
section
/-! DEFINITION. Cells, lanes, the spray, requests and grants, flow control and mirror copies (R333 to R350,
R355 to R358, R363 to R366): what both sides of switching use. -/

namespace Sys2Proof.Machine

/-! ### Cells (R333 to R337) -/

/-- One bit of the header's CRC-16 (R334). -/
def crc16Bit (c : Nat) : Nat := if 32768 ≤ c then (2 * c % 65536) ^^^ 0x1021 else 2 * c % 65536

/-- One byte of it. -/
def crc16Byte (c b : Nat) : Nat :=
  crc16Bit (crc16Bit (crc16Bit (crc16Bit (crc16Bit (crc16Bit (crc16Bit (crc16Bit (c ^^^ (b * 256)))))))))

/-- CRC-16 of a byte string: polynomial 0x1021 from 0xFFFF, unreflected, no final inversion (R334). -/
def crc16 (bs : List Byte) : Nat := bs.foldl (fun c b => crc16Byte c b.toNat) 0xFFFF

/-- HCS of a header (R334). -/
def headerHcs (h : Nat) : Nat := crc16 (leBytes 14 h)

/-- A header with its HCS (R334). -/
def mkHeader (ty tc express dest src cseq plen cbytes : Nat) : BitVec 128 :=
  let h := ty + tc * 2 ^ 4 + express * 2 ^ 7 + dest * 2 ^ 8 + src * 2 ^ 24 + cseq * 2 ^ 32 + plen * 2 ^ 64 +
    cbytes * 2 ^ 80
  BitVec.ofNat 128 (h + headerHcs h * 2 ^ 112)

def Hd.type (h : BitVec 128) : Nat := bitsOf h.toNat 0 4
def Hd.tc (h : BitVec 128) : Nat := bitsOf h.toNat 4 3
def Hd.express (h : BitVec 128) : Bool := bitAt h.toNat 7
def Hd.dest (h : BitVec 128) : Nat := bitsOf h.toNat 8 16
def Hd.src (h : BitVec 128) : Nat := bitsOf h.toNat 24 6
def Hd.relayed (h : BitVec 128) : Bool := bitAt h.toNat 30
def Hd.cseq (h : BitVec 128) : Nat := bitsOf h.toNat 32 24
def Hd.plen (h : BitVec 128) : Nat := bitsOf h.toNat 64 15
def Hd.cbytes (h : BitVec 128) : Nat := bitsOf h.toNat 80 9

/-- A header a receiver accepts: HCS right, TYPE 1 to 5, reserved bits 0 (R336). -/
def headerGood (h : BitVec 128) : Bool :=
  let n := h.toNat
  decide (bitsOf n 112 16 = headerHcs n ∧ 1 ≤ Hd.type h ∧ Hd.type h ≤ 5 ∧ bitsOf n 31 1 = 0 ∧
    bitsOf n 56 8 = 0 ∧ bitsOf n 79 1 = 0 ∧ bitsOf n 89 23 = 0)

/-- The header of a relayed cell: RELAYED 1, HCS made again (R347). -/
def relayHeader (h : BitVec 128) : BitVec 128 :=
  let n := setBit (h.toNat % 2 ^ 112) 30 true
  BitVec.ofNat 128 (n + headerHcs n * 2 ^ 112)

/-- The byte string a packet is sent as: its ticket, cut to 64 bytes on a level-1 link, and its bytes (R335,
R342). -/
def cellBytes (p : Pkt) (short : Bool) : List Byte :=
  (if short then (tkBytes p.ticket).take 64 else tkBytes p.ticket) ++ p.data

/-- Cells of a byte string (R335). -/
def cellCount (n : Nat) : Nat := (n + 255) / 256

/-- A packet's cells in its stream from CSEQ `cseq` on (R335). -/
def mkCells (p : Pkt) (short : Bool) (dest src express cseq : Nat) : List Cell :=
  let bs := cellBytes p short
  let n := cellCount bs.length
  (List.range n).map (fun i =>
    let part := (bs.drop (256 * i)).take 256
    let ty := if n = 1 then 4 else if i = 0 then 1 else if i + 1 = n then 3 else 2
    let plen := if i = 0 then p.data.length else 0
    ⟨mkHeader ty (Tk.tc p.ticket) express dest src ((cseq + i) % 2 ^ 24) plen part.length, slice part 0 256⟩)

/-! ### Module id and modes (R24, R339) -/

def myId (s : State) : Nat := s.rd F.FB_MODE.ID_EFF 0
def modeEff (s : State) : Nat := s.rd F.FB_MODE.MODE_EFF 0

/-- A system destination is a group destination, and its group (R359). -/
def isGroup (s : State) (dest : Nat) : Bool :=
  s.on F.FB_MODE.GROUP_EN 0 && dest / 1024 == s.rd F.FB_MODE.GROUP_ID 0

/-! ### Lanes and patterns (R338 to R347) -/

def laneState (s : State) (k : Nat) : Nat := s.rd F.FB_LINK.STATE k
def laneUp (s : State) (k : Nat) : Bool := laneState s k == 2
/-- A lane that is UP, and not under retirement or leaving, takes cells (R346, R503, R543). -/
def laneCarries (s : State) (k : Nat) : Bool := laneUp s k && svState s (96 + k) == 0 && !lanesLeaving s
def laneLevel (s : State) (k : Nat) : Nat := s.rd F.FB_LINK.LEVEL_EFF k

/-- Spray order of the lanes: X0, X16, X32, X1, … (R346). -/
def laneOrder : List Nat := (List.range 48).map (fun i => 16 * (i % 3) + i / 3)

/-- A lane's twin use (FB_LINK). -/
def twinLane (s : State) (k : Nat) : Bool := decide (32 ≤ k) && modeEff s == 3

/-- The peer of lane group `g` in a mesh: the peer of its first lane that is UP (R340). -/
def groupPeer (s : State) (g : Nat) : Option Nat :=
  ((List.range 16).find? (fun i => laneUp s (16 * g + i))).map (fun i => s.rd F.FB_LINK.PEER (16 * g + i))

/-- The modules of the mesh that this module knows of, `m` among them, rising. -/
def meshIds (s : State) (m : Nat) : List Nat :=
  (List.range 64).filter (fun x => x == myId s || x == m ||
    (List.range 3).any (fun g => groupPeer s g == some x))

/-- The peer of lane `k` reports that it reaches module `m` at level 3 (R337, HELLO INFO [7:5]): the peer's lane
groups lead to the other modules in rising order (R24). -/
def reportsReach (s : State) (k m : Nat) : Bool :=
  let q := s.rd F.FB_LINK.PEER k
  let others := (meshIds s m).filter (· != q)
  bitAt (Sparse.get 0 s.fb.hello k) (5 + (others.takeWhile (· != m)).length)

/-- May lane `k` carry cells for module `m` (R341, R342, R347)? -/
def laneServes (s : State) (m k : Nat) : Bool :=
  laneCarries s k && (twinLane s k || decide (1 < laneLevel s k) || decide (m < 32)) &&
  (match modeEff s with
    | 0 => true
    | 1 => s.rd F.FB_LINK.PEER k == m || (laneLevel s k == 3 && reportsReach s k m)
    | 3 => twinLane s k
    | _ => false)

/-- The spray pattern of module `m` (R346, R347). -/
def patternOf (s : State) (m : Nat) : List Nat := laneOrder.filter (laneServes s m)

/-- Lanes over which a cell is relayed to module `m`: its own group's, at level 3 (R341, R347). -/
def relayLanes (s : State) (m : Nat) : List Nat :=
  laneOrder.filter (fun k => laneCarries s k && s.rd F.FB_LINK.PEER k == m && laneLevel s k == 3)

/-- Lanes of module `m` in a context: 0 bulk, 1 express, 2 relayed. -/
def ctxLanes (s : State) (m ctx : Nat) : List Nat := if ctx = 2 then relayLanes s m else patternOf s m

/-- Modules other than this one that are UP, or reachable by relay (R350). -/
def reachedModules (s : State) : List Nat :=
  (List.range 64).filter (fun m => m != myId s && !(s.on F.FB_MODE.GROUP_EN 0 && m == s.rd F.FB_MODE.GROUP_ID 0) &&
    modeEff s != 3 && !(patternOf s m).isEmpty)

/-- Something can be sent to module `m`: this module, or a module in some pattern (R349). -/
def reaches (s : State) (m : Nat) : Bool :=
  m == myId s || (modeEff s != 3 && !(patternOf s m).isEmpty)

/-- Module `m` is reached by level-1 links only (R342). -/
def levelOneOnly (s : State) (m : Nat) : Bool :=
  m != myId s && (patternOf s m).all (fun k => laneLevel s k == 1)

/-- The lane a cell for `m` goes on, and the pointer's advance; context 0 bulk, 1 express, 2 relayed (R346). -/
def sprayLane (s : State) (m ctx : Nat) (lanes : List Nat) : State × Option Nat :=
  if lanes.isEmpty then (s, none)
  else
    let k := pairKey m ctx
    let p := (Sparse.get none s.fb.spray k).getD m % lanes.length
    ({ s with fb := { s.fb with spray := Sparse.set none s.fb.spray k (some ((p + 1) % lanes.length)) } },
      lanes[p]?)

/-- The pattern has changed: each pointer is reduced modulo the new length (R346). -/
def reduceSpray (s : State) : State :=
  { s with fb := { s.fb with spray := s.fb.spray.map (fun e =>
    let n := (ctxLanes s (unpair e.1).1 (unpair e.1).2).length
    (e.1, if n = 0 then e.2 else e.2.map (· % n))) } }

def LaneTx.init : LaneTx := ⟨[], [], [], [], []⟩

def laneTx (s : State) (k : Nat) : LaneTx := Sparse.get LaneTx.init s.fb.tx k

def State.setLaneTx (s : State) (k : Nat) (t : LaneTx) : State :=
  { s with fb := { s.fb with tx := Sparse.set LaneTx.init s.fb.tx k t } }

/-- A cell joins those that wait for a lane (R337, R348). -/
def LaneTx.addCell (t : LaneTx) (c : Cell) : LaneTx :=
  if Hd.type c.hdr = 5 then { t with relayedCtl := t.relayedCtl ++ [c] }
  else if Hd.express c.hdr then { t with express := t.express ++ [c] }
  else if Hd.relayed c.hdr then { t with relayed := t.relayed ++ [c] }
  else { t with bulk := t.bulk ++ [c] }

/-- A cell waits for a lane. -/
def sendCell (s : State) (lane : Nat) (c : Cell) : State := s.setLaneTx lane ((laneTx s lane).addCell c)

/-- A control message for module `m` waits for a lane. -/
def laneControl (s : State) (lane m : Nat) (msg : Word) : State :=
  s.setLaneTx lane { (laneTx s lane) with control := (laneTx s lane).control ++ [(m, msg)] }

/-- A control message goes to module `m`, on the first lane of its pattern (DESIGN CHOICE, log entry 164). -/
def sendControl (s : State) (m : Nat) (msg : Word) : State :=
  match patternOf s m with
  | k :: _ => laneControl s k m msg
  | [] => s

/-- Send a packet's cells to module `m` (R345 to R347); over the crossbar when it is this module (R25). -/
def sendPacket (s : State) (m dest : Nat) (p : Pkt) : State :=
  let express := flag (decide (Tk.tc p.ticket = 7))
  let ck := pairKey m express
  let cseq := Sparse.get 0 s.fb.cseq ck
  if m = myId s then
    let cells := mkCells p false dest (myId s) express cseq
    { s with fb := { s.fb with
      xbar := s.fb.xbar ++ cells
      cseq := Sparse.set 0 s.fb.cseq ck ((cseq + cells.length) % 2 ^ 24) } }
  else
    let lanes := patternOf s m
    let first := (sprayLane s m express lanes).2
    let short := match first with
      | some k => laneLevel s k == 1 && !twinLane s k
      | none => false
    let cells := mkCells p short dest (myId s) express cseq
    let s := { s with fb := { s.fb with cseq := Sparse.set 0 s.fb.cseq ck ((cseq + cells.length) % 2 ^ 24) } }
    cells.foldl (fun s c =>
      let r := sprayLane s m express lanes
      match r.2 with
      | some k => sendCell r.1 k c
      | none => r.1) s

/-! ### Flow control (R349, R350) -/

/-- A control message (R337). -/
def controlMsg (kind mod_ dest cells token info : Nat) : Word :=
  BitVec.ofNat 64 (kind + mod_ * 2 ^ 4 + dest * 2 ^ 16 + cells * 2 ^ 32 + token * 2 ^ 40 + info * 2 ^ 48)

/-- Flow control as heard for a system destination. -/
def hearFlow (s : State) (dest : Nat) (stop : Bool) : State :=
  { s with fb := { s.fb with xoffHeard := Sparse.set false s.fb.xoffHeard dest stop } }

/-- A system destination of this module. -/
def ownDest (s : State) (d : Nat) : Nat := myId s * 1024 + d

/-- Send XOFF or XON for a local destination when its depth has reached its mark (R350). -/
def flowCheck (s : State) (d : Nat) : State :=
  let sent := Sparse.get false s.fb.xoffSent d
  let depth := portDepth s d
  let say (s : State) (stop : Bool) : State :=
    let s := { s with fb := { s.fb with xoffSent := Sparse.set false s.fb.xoffSent d stop } }
    (reachedModules s).foldl
      (fun s m => sendControl s m (controlMsg (if stop then 4 else 5) 0 (ownDest s d) 0 0 0))
      (hearFlow s (ownDest s d) stop)
  if !sent && decide (s.rd F.FB_FC_CTRL.FC_STOP 0 * 1024 ≤ depth) then say s true
  else if sent && decide (depth ≤ s.rd F.FB_FC_CTRL.FC_GO 0 * 1024) then say s false
  else s

/-- Check every port that has packets or has sent XOFF: the marks, or the hierarchy, have changed. -/
def flowAll (s : State) : State :=
  (s.q.eqs.filterMap (fun e => chainPort s (.eq e.1)) ++ s.fb.xoffSent.map (·.1)).eraseDups.foldl flowCheck s

/-! ### Request and grant (R355 to R358) -/

def Arb.init : Arb := ⟨0, 0, [], [], 0⟩

def arbAt (s : State) (d : Nat) : Arb := Sparse.get Arb.init s.fb.arbs d

def State.setArb (s : State) (d : Nat) (a : Arb) : State :=
  { s with fb := { s.fb with arbs := Sparse.set Arb.init s.fb.arbs d a } }

def reqAt (s : State) (dest : Nat) : ExpReq := Sparse.get .idle s.fb.reqs dest

def State.setReq (s : State) (dest : Nat) (r : ExpReq) : State :=
  { s with fb := { s.fb with reqs := Sparse.set .idle s.fb.reqs dest r } }

/-- POWER of a local destination: 0 ON, 1 DRAINING, 2 OFF (VT_PORT). -/
def powerOf (s : State) (d : Nat) : Nat := s.rd F.VT_PORT.POWER d

/-- The first of an arbiter's tokens that answers to `p` closes; its cells leave G unless it has expired: a token is
settled once only (R357). -/
def closeToken (a : Arb) (p : Token → Bool) : Arb :=
  match splitAtFirst p a.tokens with
  | none => a
  | some (pre, t, post) => { a with g := if t.expired then a.g else a.g - t.cells, tokens := pre ++ post }

/-- The first token of a module's is settled (R357). -/
def settleToken (s : State) (d m : Nat) : State := s.setArb d (closeToken (arbAt s d) (fun t => t.module == m))

/-- A CANCEL settles the token it names (R357). -/
def cancelToken (s : State) (d m token : Nat) : State :=
  s.setArb d (closeToken (arbAt s d) (fun t => t.module == m && t.token == token))

/-- A token expires: its cells leave G (R357). -/
def expireToken (a : Arb) (token : Nat) : Arb :=
  match splitAtFirst (fun (t : Token) => t.token == token && !t.expired) a.tokens with
  | none => a
  | some (pre, t, post) => { a with g := a.g - t.cells, tokens := pre ++ { t with expired := true } :: post }

/-- Cells of module `m`'s express stream have been lost: its expired tokens, whose packets may be among them, close. -/
def forgetExpired (s : State) (m : Nat) : State :=
  { s with fb := { s.fb with arbs := s.fb.arbs.map (fun e =>
    (e.1, { e.2 with tokens := e.2.tokens.filter (fun t => !(t.expired && t.module == m)) })) } }

/-- A GRANT reaches its VOQ: it is eligible for one packet, or the grant is cancelled when the VOQ is empty
(R357). -/
def takeGrant (s : State) (dest token : Nat) : State :=
  if (voqOf s (8 * dest + 7)).isEmpty then
    let s := s.setReq dest .idle
    if dest / 1024 = myId s then cancelToken s (dest % 1024) (myId s) token
    else sendControl s (dest / 1024) (controlMsg 3 (myId s) dest 0 token 0)
  else if reqAt s dest = .requested then s.setReq dest .granted
  else s

/-- An arbiter grants a module (R356). -/
def grantTo (s : State) (d m cells : Nat) : State :=
  let a := arbAt s d
  let token := a.nextToken
  let s := s.setArb d { a with
    ptr := (m + 1) % 64
    g := a.g + cells
    waiting := removeFirst (fun w => w.1 == m) a.waiting
    tokens := a.tokens ++ [⟨token, m, cells, s.clk.ns, false⟩]
    nextToken := (token + 1) % 256 }
  if m = myId s then takeGrant s (ownDest s d) token
  else sendControl s m (controlMsg 2 m (ownDest s d) 0 token 0)

/-- A REQUEST reaches the arbiter of a local destination (R355); one that is not ON grants at once (R358). -/
def addRequest (s : State) (m d cells : Nat) : State :=
  let a := arbAt s d
  let s := s.setArb d { a with waiting := a.waiting ++ [(m, cells)] }
  if powerOf s d = 0 then s else grantTo s d m cells

/-- A class-7 VOQ that holds a packet and has neither request nor grant asks for one (R355); towards level-1
links the module grants itself (R342), and a group destination holds a standing grant (R358). -/
def askExpress (s : State) (dest : Nat) : State :=
  let m := dest / 1024
  match voqOf s (8 * dest + 7) with
  | [] => s
  | x :: _ =>
    if isGroup s dest || reqAt s dest != .idle || !reaches s m then s
    else if levelOneOnly s m then s.setReq dest .granted
    else
      let cells := cellCount (128 + x.len)
      let s := s.setReq dest .requested
      if m = myId s then addRequest s m (dest % 1024) cells
      else sendControl s m (controlMsg 1 (myId s) dest cells 0 0)

/-- Every class-7 VOQ that waits asks: a module has come within reach. -/
def askAll (s : State) : State :=
  s.q.voqs.foldl (fun s e => if e.1 % 8 = 7 then askExpress s (e.1 / 8) else s) s

/-- The lanes, what they reach, or the mode or id in effect have changed (R346, R355). -/
def lanesChanged (s : State) : State := askAll (reduceSpray s)

/-! ### Groups at the sender (R360) -/

/-- Residue of group `g` for target `t` waits on a retry list. -/
def residueFor (l : List Residue) (g t : Nat) : Bool := l.any (fun r => r.group == g && r.owed.contains t)

/-- Member modules of a group (FB_GROUP); GROUP_ID's bit is ignored. -/
def groupMembers (s : State) (g : Nat) : List Nat :=
  (bitsSet (s.rd F.FB_GROUP.MODULES g) 64).filter (· != s.rd F.FB_MODE.GROUP_ID 0)

def memberReady (s : State) (g m : Nat) : Bool := reaches s m && !residueFor s.fb.retryTx g m

/-- A class-7 VOQ holds a grant, its own or a group's standing one (R319, R358), and its cells have a way to go: what
waits while lanes are down stays queued (R344, R360). -/
def holdsGrant (s : State) (dest : Nat) : Bool :=
  if isGroup s dest then (groupMembers s (dest % 1024)).any (memberReady s (dest % 1024))
  else reqAt s dest == .granted && reaches s (dest / 1024)

/-- A system destination accepts cells (R349, R360). -/
def accepts (s : State) (dest : Nat) : Bool :=
  (if isGroup s dest then (groupMembers s (dest % 1024)).any (memberReady s (dest % 1024))
    else reaches s (dest / 1024)) && !Sparse.get false s.fb.xoffHeard dest

/-! ### Enqueue on a VOQ, and mirror copies (R300, R363 to R366) -/

/-- Enqueue a packet on its VOQ (R300, R302 step 5). -/
def enqueueVoq (s : State) (p : Pkt) (handle : Nat) : State :=
  let dest := Tk.dest p.ticket
  let q := 8 * dest + Tk.tc p.ticket
  let s := s.setVoq q (voqOf s q ++ [⟨p, nowUs s, handle, myId s⟩])
  let s := { s with q := { s.q with adm := { s.q.adm with peak := max s.q.adm.peak (voqBacklog s) } } }
  if Tk.tc p.ticket = 7 then askExpress s dest else s

/-- A candidate of session `m` is counted; does it become a copy (R364)? -/
def mirrorCount (s : State) (m : Nat) : State × Bool :=
  let n := Sparse.get 0 s.fb.sessions m + 1
  let full := decide (s.rd F.FB_MSESS.SAMPLE m < n)
  ({ s with fb := { s.fb with sessions := Sparse.set 0 s.fb.sessions m (if full then 0 else n) } },
    full && s.on F.FB_MSESS.EN m)

/-- A copy's packet (R365). -/
def sessionCopy (s : State) (m : Nat) (p : Pkt) : Pkt :=
  let tk := tkPut p.ticket 0 0 16 (s.rd F.FB_MSESS.DEST m)
  let tk := tkPut tk 2 0 3 (s.rd F.FB_MSESS.TC m)
  let tk := tkPut tk 18 0 15 (s.rd F.FB_MSESS.EQ m)
  let tk := tkPut tk 3 1 1 1
  let tk := tkPut tk 24 0 10 m
  let tk := tkPut tk 12 20 1 0
  let trunc := s.rd F.FB_MSESS.TRUNC m
  Pkt.withLength ⟨tk, if trunc = 0 then p.data else p.data.take (64 * trunc)⟩

/-- A candidate made at Varton: its copy shares the packet's buffer and is enqueued after the threshold check
alone (R366). -/
def mirrorAt (s : State) (m : Nat) (p : Pkt) (handle : Nat) : State :=
  if Tk.mirror p.ticket then s
  else
    let c := mirrorCount s m
    if !c.2 then c.1
    else
      let s := c.1
      let p := sessionCopy s m p
      if fits s (.voq (8 * Tk.dest p.ticket + Tk.tc p.ticket)) p then enqueueVoq (shareBuf s handle) p handle
      else s.count 585 (some m) 1 p.attr

/-- Flow mirroring and ingress port mirroring of an admitted packet (R363). -/
def mirrorIngress (s : State) (p : Pkt) (handle : Nat) : State :=
  let m := Tk.session p.ticket
  let s := if m = 0 then s else mirrorAt s m p handle
  let src := Tk.source p.ticket
  if src < 160 ∧ s.on F.FB_MSRC.EN src = true then mirrorAt s (s.rd F.FB_MSRC.SESSION src) p handle else s

/-! ### Enqueue at the destination Varton (R303, R361) -/

/-- Enqueue a packet or copy of local destination `d` on an egress queue; its share of the buffer returns when it
is discarded (R303, R312, R330, R331, R363). -/
def enqueueEgress (s : State) (d eq : Nat) (p : Pkt) (handle src : Nat) : State :=
  if powerOf s d = 1 then releaseBuf (s.count 454 (some d) 1 p.attr) handle
  else if powerOf s d = 2 then releaseBuf (s.count 455 (some d) 1 p.attr) handle
  else if !(attached s (.eq eq) && chainPort s (.eq eq) == some d) then
    releaseBuf (s.count 448 (some d) 1 p.attr) handle
  else if !fits s (.eq eq) p then
    releaseBuf (frescoLoss (s.count 451 (some (524288 + eq)) 1 p.attr) d) handle
  else
    let s := s.setEq eq (eqOf s eq ++ [⟨p, nowUs s, handle, src⟩])
    let s := flowCheck s d
    if d < 160 ∧ s.on F.FB_MDST.EN d = true then mirrorAt s (s.rd F.FB_MDST.SESSION d) p handle else s

/-- Replication entries of a group on this module that are in use (R361). -/
def groupEntries (s : State) (g : Nat) : List Nat :=
  ((List.range (s.rd F.FB_GROUP.COUNT g)).map (s.rd F.FB_GROUP.FIRST g + ·)).filter (s.on F.FB_REPL.EN ·)

/-- Entry `i`'s target can take a copy now, residue apart (R361). -/
def entryOpen (s : State) (i : Nat) (p : Pkt) : Bool :=
  powerOf s (s.rd F.FB_REPL.LDEST i) == 0 && fits s (.eq (s.rd F.FB_REPL.EQ i)) p

/-- A copy for replication entry `i`. -/
def enqueueEntry (s : State) (i : Nat) (p : Pkt) (handle src : Nat) : State :=
  let eq := s.rd F.FB_REPL.EQ i
  enqueueEgress (shareBuf s handle) (s.rd F.FB_REPL.LDEST i) eq
    { p with ticket := tkPut p.ticket 18 0 15 eq } handle src

/-- Targets that cannot be served become one residue entry, or residue drops when the list is full (R362). -/
def addResidue (s : State) (tx : Bool) (g : Nat) (x : Queued) (owed : List Nat) : State :=
  let l := if tx then s.fb.retryTx else s.fb.retryRx
  if owed.isEmpty then s
  else if 8192 ≤ l.length then s.count 584 (some g) owed.length x.pkt.attr
  else
    let r : Residue := ⟨g, x, owed, s.clk.ns⟩
    let s := shareBuf s x.handle
    if tx then { s with fb := { s.fb with retryTx := l ++ [r] } }
    else { s with fb := { s.fb with retryRx := l ++ [r] } }

/-- A packet, reassembled and past the eliminator, goes to its egress queue or its group's entries (R303,
R361). -/
def deliverEgress (s : State) (x : Queued) : State :=
  let dest := Tk.dest x.pkt.ticket
  if isGroup s dest then
    let g := dest % 1024
    let es := groupEntries s g
    let ready := es.filter (fun i => entryOpen s i x.pkt && !residueFor s.fb.retryRx g i)
    let s := ready.foldl (fun s i => enqueueEntry s i x.pkt x.handle x.src) s
    let s := addResidue s false g x (es.filter (fun i => !ready.contains i))
    releaseBuf s x.handle
  else enqueueEgress s (dest % 1024) (Tk.eq x.pkt.ticket) x.pkt x.handle x.src

/-- A packet of a group leaves its VOQ: copies go to the ready members, the others become residue (R360). A copy's cells
are addressed to the member, with the group's number; the ticket keeps the group's destination (DESIGN CHOICE, log
entry 165). -/
def sendGroup (s : State) (x : Queued) : State :=
  let dest := Tk.dest x.pkt.ticket
  let g := dest % 1024
  let ms := groupMembers s g
  let ready := ms.filter (memberReady s g)
  let s := ready.foldl (fun s m => leaveBuf (shareBuf (sendPacket s m (m * 1024 + g) x.pkt) x.handle) x.handle) s
  let s := addResidue s true g x (ms.filter (fun m => !ready.contains m))
  releaseBuf s x.handle

end Sys2Proof.Machine
end

