-- ==== Sys2Proof/Machine/Eliminator.lean ====
section
/-! DEFINITION. Protected streams: sequence recovery, in-order delivery and sequence generation (R376, R377,
R382 to R386). -/

namespace Sys2Proof.Machine

/-! ### Streams (R385) -/

/-- A stream at Varton reset. -/
def Stream.init : Stream := ⟨0, 0, true, 0, [], 0, [], none⟩

def streamAt (s : State) (n : Nat) : Stream := Sparse.get Stream.init s.tn.streams n

def State.setStream (s : State) (n : Nat) (v : Stream) : State :=
  { s with tn := { s.tn with streams := Sparse.set Stream.init s.tn.streams n v } }

def Stream.en (t : Stream) : Bool := bitAt t.desc.toNat 0
def Stream.func (t : Stream) : Nat := bitsOf t.desc.toNat 1 2
def Stream.inOrder (t : Stream) : Bool := bitAt t.desc.toNat 3
def Stream.gen (t : Stream) : Bool := bitAt t.desc.toNat 4
def Stream.histLen (t : Stream) : Nat := bitsOf t.desc.toNat 8 11
def Stream.resetMs (t : Stream) : Nat := bitsOf t.desc.toNat 24 16
def Stream.holdUs (t : Stream) : Nat := bitsOf t.desc.toNat 40 16

/-- A stream descriptor as committed. -/
def clampStream (v : Nat) : Nat :=
  let func := if bitsOf v 1 2 = 3 then 0 else bitsOf v 1 2
  bitsOf v 0 1 + func * 2 + (if func = 1 then bitsOf v 3 1 else 0) * 8 + bitsOf v 4 1 * 16 +
    clampRange 1 1024 (bitsOf v 8 11) * 2 ^ 8 + clampRange 1 65535 (bitsOf v 24 16) * 2 ^ 24 +
    clampRange 1 65535 (bitsOf v 40 16) * 2 ^ 40

/-- A stream's state word as the window shows it. -/
def streamWord (t : Stream) : Nat := t.recSeq + flag t.takeAny * 2 ^ 16 + t.nextSeq * 2 ^ 32

/-! ### Recovery (R384) -/

/-- What recovery makes of a packet. -/
inductive Recovery where
  | passed | duplicate | rogue
  deriving DecidableEq, Repr

/-- Distance of a sequence number from another, modulo 65,536, as IEEE 802.1CB takes it. -/
def seqDelta (a b : Nat) : Int := signed 16 ((a + 65536 - b % 65536) % 65536)

/-- The vector recovery algorithm: the stream after the packet, its outcome, and how many sequence numbers left
the window unseen. -/
def vectorStep (t : Stream) (rseq : Nat) : Stream × Recovery × Nat :=
  let h := t.histLen
  let hist := (t.history ++ List.replicate (h - t.history.length) false).take h
  if t.takeAny then
    ({ t with takeAny := false, recSeq := rseq, history := true :: List.replicate (h - 1) false }, .passed, 0)
  else
    let d := seqDelta rseq t.recSeq
    if (h : Int) ≤ d ∨ d ≤ -(h : Int) then (t, .rogue, 0)
    else if d ≤ 0 then
      let i := (-d).toNat
      if hist.getD i false then (t, .duplicate, 0)
      else ({ t with history := setAt hist i true }, .passed, 0)
    else
      let n := d.toNat
      ({ t with recSeq := rseq, history := (true :: List.replicate (n - 1) false) ++ hist.take (h - n) }, .passed,
        ((hist.drop (h - n)).filter (!·)).length)

/-- The match recovery algorithm. -/
def matchStep (t : Stream) (rseq : Nat) : Stream × Recovery × Nat :=
  if !t.takeAny && t.recSeq == rseq then (t, .duplicate, 0)
  else ({ t with takeAny := false, recSeq := rseq }, .passed, 0)

/-! ### Release -/

/-- A packet past the eliminator goes on to its egress queue or group, but an annealing follower discards it
(R382, R386). -/
def passOn (s : State) (q : Queued) : State :=
  if tnFollower s && tnState s != 5 then releaseBuf (s.count 714 none 1 q.pkt.attr) q.handle
  else deliverEgress s q

/-- Release a stream's held packets in sequence order (R385). -/
def releaseHeld (s : State) (n : Nat) : State :=
  let t := streamAt s n
  let s := s.setStream n { t with
    held := []
    released := match t.held.getLast? with
      | some h => some h.rseq
      | none => t.released }
  t.held.foldl (fun s h => passOn s h.q) s

/-- Held packets that follow the last released one without a gap are released. -/
def releaseReady (n : Nat) : Nat → State → State
  | 0, s => s
  | fuel + 1, s =>
    let t := streamAt s n
    match t.held, t.released with
    | h :: hs, some r =>
      if h.rseq = (r + 1) % 65536 then
        releaseReady n fuel (passOn (s.setStream n { t with held := hs, released := some h.rseq }) h.q)
      else s
    | _, _ => s

/-- Packets held on every stream (R385). -/
def heldCount (s : State) : Nat := sumOf (s.tn.streams.map (fun e => e.2.held.length))

/-- Insert a held packet in sequence order, `base` being released last. -/
def insertHeld (base : Nat) (h : Held) : List Held → List Held
  | [] => [h]
  | x :: xs => if seqDelta h.rseq base < seqDelta x.rseq base then h :: x :: xs else x :: insertHeld base h xs

/-- Hold a passed packet (R385); a full hold store releases the stream's packets at once. -/
def holdPacket (s : State) (n rseq : Nat) (q : Queued) : State :=
  let t := streamAt s n
  let full := decide (16384 ≤ heldCount s)
  let s := s.setStream n { t with
    held := insertHeld (t.released.getD t.recSeq) ⟨rseq, q, s.clk.ns⟩ t.held }
  if full then releaseHeld (s.count 713 (some n) 1 q.pkt.attr) n else s

/-- A packet is counted as passed, from which RESET_MS runs (R384). -/
def countPassed (s : State) (n : Nat) (q : Queued) : State :=
  (s.count 706 (some n) 1 q.pkt.attr).setStream n { (streamAt s n) with lastPass := s.clk.ns }

/-- RSEQ precedes a packet that the stream has released (R385). -/
def precedesReleased (s : State) (n rseq : Nat) : Bool :=
  match (streamAt s n).released with
  | some r => decide (seqDelta rseq r < 0)
  | none => false

/-- Deliver a passed packet of an in-order stream: late, held, or released with what follows it (R385). `fresh`
says that it was taken with TAKE_ANY, and then what was held leaves before it; `ahead` that it lies more than one past
REC_SEQ as that stood. -/
def inOrderDeliver (s : State) (n rseq : Nat) (q : Queued) (fresh ahead : Bool) : State :=
  let s := if fresh then releaseHeld s n else s
  if precedesReleased s n rseq then releaseBuf (s.count 709 (some n) 1 q.pkt.attr) q.handle
  else if fresh then
    let s := countPassed s n q
    passOn (s.setStream n { (streamAt s n) with released := some rseq }) q
  else
    let s := countPassed s n q
    let t := streamAt s n
    let gap := match t.released with
      | some r => !t.held.isEmpty && rseq != (r + 1) % 65536
      | none => false
    if gap || (ahead && t.held.isEmpty) then holdPacket s n rseq q
    else
      let s := s.setStream n { t with released := some rseq }
      releaseReady n (t.held.length) (passOn s q)

/-- The eliminator (R382, R384, R385). -/
def eliminate (s : State) (q : Queued) : State :=
  let n := Tk.stream q.pkt.ticket
  let rseq := Tk.rseq q.pkt.ticket
  let t := streamAt s n
  if !t.en || t.func == 0 then passOn s q
  else
    let r := if t.func = 1 then vectorStep t rseq else matchStep t rseq
    let s := s.setStream n r.1
    let s := if r.2.2 = 0 then s else s.count 710 (some n) r.2.2 q.pkt.attr
    match r.2.1 with
    | .duplicate => releaseBuf (s.count 707 (some n) 1 q.pkt.attr) q.handle
    | .rogue => releaseBuf (s.count 708 (some n) 1 q.pkt.attr) q.handle
    | .passed =>
      if t.inOrder then inOrderDeliver s n rseq q t.takeAny (decide (1 < seqDelta rseq t.recSeq))
      else passOn (countPassed s n q) q

/-- A reassembled packet of this module: protected ones meet the eliminator first (R382). -/
def arriveEgress (s : State) (x : Queued) : State :=
  if Tk.isProtected x.pkt.ticket && !Tk.mirror x.pkt.ticket then eliminate s x else deliverEgress s x

/-! ### Sequence generation (R376, R377, R381) -/

/-- A packet of a generated stream. -/
def isGenerated (s : State) (p : Pkt) : Bool :=
  Tk.isProtected p.ticket && (streamAt s (Tk.stream p.ticket)).gen

/-- Numbering of an admitted packet at Varton ingress: the packet, and whether a copy goes to the twin port. From
the twin link a follower takes the lead's number (R376, R377). -/
def generate (s : State) (p : Pkt) (fromTwin : Bool) : State × Pkt × Bool :=
  let n := Tk.stream p.ticket
  let t := streamAt s n
  if !isGenerated s p then (s, p, false)
  else if tnFollower s then
    (if fromTwin then s.setStream n { t with nextSeq := (Tk.rseq p.ticket + 1) % 65536 } else s, p, false)
  else if fromTwin then (s, p, false)
  else
    (s.setStream n { t with nextSeq := (t.nextSeq + 1) % 65536 },
      { p with ticket := tkPut p.ticket 22 0 16 t.nextSeq }, tnLead s && tnLink s)

/-- A module that takes the lead skips GEN_SKIP numbers on every generated stream (R377). -/
def skipGenerated (s : State) : State :=
  let skip := s.rd F.TN_CTRL.GEN_SKIP 0
  s.tn.streams.foldl (fun s e =>
    if e.2.gen then s.setStream e.1 { e.2 with nextSeq := (e.2.nextSeq + skip) % 65536 } else s) s

/-! ### Commands on streams -/

/-- HOLD_EXPIRY. The oldest held packet of a stream has waited HOLD_US (R385). -/
def execHoldExpiry (stream : Nat) (s : State) : Host.Outcome State Fault Refusal :=
  let t := streamAt s stream
  match t.held with
  | [] => .next s
  | h :: hs =>
    let oldest := (hs.map (·.since)).foldl min h.since
    let s := reachTime s (oldest + t.holdUs * 1000)
    .next (releaseHeld (s.count 712 (some stream) 1 h.q.pkt.attr) stream)

/-- RECOVERY_RESET. RESET_MS has passed with no packet passed: TAKE_ANY becomes 1 (R384). -/
def execRecoveryReset (stream : Nat) (s : State) : Host.Outcome State Fault Refusal :=
  let t := streamAt s stream
  if !t.en || t.func == 0 || t.takeAny then .next s
  else
    let s := reachTime s (t.lastPass + t.resetMs * 1000000)
    .next ((s.setStream stream { t with takeAny := true, history := [] }).count 711 (some stream) 1 {})

/-- The stream window's DATA0 and DATA1 show a stream (R385). -/
def showStream (s : State) (n : Nat) : State :=
  let t := streamAt s n
  (s.wr F.TN_STREAM_WIN.DATA0 0 t.desc.toNat).wr F.TN_STREAM_WIN.DATA1 0 (streamWord t)

/-- The stream delivers in order (R385). -/
def Stream.ordered (t : Stream) : Bool := t.en && t.func == 1 && t.inOrder

/-- WRITE of the window: the descriptor is clamped, stored and shown. A stream no longer in order releases what it held;
one that becomes so takes what it has passed, REC_SEQ, as released. -/
def commitStream (s : State) (n : Nat) : State :=
  let t := streamAt s n
  let t' := { t with desc := BitVec.ofNat 64 (clampStream (s.rd F.TN_STREAM_WIN.DATA0 0)) }
  let s := s.setStream n t'
  showStream (if !t'.ordered then releaseHeld s n
    else if t.ordered then s
    else s.setStream n { t' with released := if t.takeAny then none else some t.recSeq }) n

/-- RESET of the window: TAKE_ANY 1, NEXT_SEQ 0, held packets released, then a read. -/
def resetStream (s : State) (n : Nat) : State :=
  let s := releaseHeld s n
  showStream (s.setStream n { (streamAt s n) with takeAny := true, nextSeq := 0 }) n

end Sys2Proof.Machine
end

