-- ==== Sys2Proof/Machine/Operands.lean ====
section
/-! DEFINITION. Operand forms of the Henig packet instruction set: the five formats (R121), the frame
window, the ticket, the key and the layer offsets (R130 to R143). -/

namespace Sys2Proof.Machine

/-! ### Formats (R121) -/

def encA (op : Nat) (f : FmtA) : BitVec 32 :=
  BitVec.ofNat 32 (op * 2 ^ 25 + f.d.toNat * 2 ^ 20 + f.a.toNat * 2 ^ 15 + f.b.toNat * 2 ^ 10 + f.x.toNat)

def encI (op : Nat) (f : FmtI) : BitVec 32 :=
  BitVec.ofNat 32 (op * 2 ^ 25 + f.d.toNat * 2 ^ 20 + f.a.toNat * 2 ^ 15 + f.p.toNat * 2 ^ 12 + f.imm.toNat)

def encN (op : Nat) (f : FmtN) : BitVec 32 :=
  BitVec.ofNat 32 (op * 2 ^ 25 + f.g.toNat * 2 ^ 20 + f.off.toNat * 2 ^ 10 + f.w.toNat * 2 ^ 5 + f.base.toNat)

def encC (op : Nat) (f : FmtC) : BitVec 32 :=
  BitVec.ofNat 32 (op * 2 ^ 25 + f.ch.toNat * 2 ^ 21 + f.d.toNat * 2 ^ 16 + f.a.toNat * 2 ^ 11 +
    f.b.toNat * 2 ^ 6 + f.x.toNat)

def encB (op : Nat) (f : FmtB) : BitVec 32 :=
  BitVec.ofNat 32 (op * 2 ^ 25 + f.s.toNat * 2 ^ 24 + f.p.toNat * 2 ^ 21 + f.z.toNat * 2 ^ 20 + f.off.toNat)

/-- Opcodes that name an instruction (R122). -/
def opcodeDefined (op : Nat) : Bool :=
  decide ((1 ≤ op ∧ op ≤ 0x1A) ∨ (0x20 ≤ op ∧ op ≤ 0x35) ∨ (0x40 ≤ op ∧ op ≤ 0x44) ∨
    (0x48 ≤ op ∧ op ≤ 0x50) ∨ (0x58 ≤ op ∧ op ≤ 0x5A) ∨ (0x60 ≤ op ∧ op ≤ 0x65))

/-! ### Frame window (R85, R132) -/

/-- Window nibble `p` of a packet: 0 above nibble 1,023 and beyond the packet. -/
def winNib (data : List Byte) (p : Nat) : Nat :=
  if p < 1024 then
    let b := (data.getD (p / 2) 0).toNat
    if p % 2 = 0 then b / 16 else b % 16
  else 0

/-- The `w` window nibbles at `e`, the first most significant. -/
def winRead (data : List Byte) (e w : Nat) : Nat :=
  (List.range w).foldl (fun a i => a * 16 + winNib data (e + i)) 0

/-- Window nibble `p` replaced; a nibble above 1,023 or beyond the packet is not written. -/
def winSet (data : List Byte) (p v : Nat) : List Byte :=
  if p < 1024 then
    modifyAt (fun b => BitVec.ofNat 8
      (if p % 2 = 0 then (v % 16) * 16 + b.toNat % 16 else b.toNat / 16 * 16 + v % 16)) data (p / 2)
  else data

/-- The low `w` nibbles of `v` written at `e`. -/
def winWrite (data : List Byte) (e w v : Nat) : List Byte :=
  (List.range w).foldl (fun d i => winSet d (e + i) (v >>> (4 * (w - 1 - i)))) data

/-! ### Layer offsets (R130, R131, R143) -/

/-- Layer offset `k` of the thread's parse record as it stands; `none` when the layer is absent. -/
def layerOffset (s : State) (t : Tid) (k : Nat) : Option Nat :=
  let v := leNat (lmemBytes s (coreOf t) (lmemBase t + 32 + 2 * k) 2)
  if v = 0xFFFF then none else some v

/-- The nibble a format-N instruction addresses (R130): `none` when its layer is absent. -/
def nAddr (s : State) (t : Tid) (f : FmtN) : Option Nat :=
  if f.base.toNat = 0 then some f.off.toNat
  else (layerOffset s t (f.base.toNat - 1)).map (· + f.off.toNat)

/-- Rewrite every present layer offset of a thread (R143). A sum past 16 bits is stored modulo 65,536, and one of 0xFFFF
reads as an absent layer (log entry 145). -/
def mapLayers (s : State) (t : Tid) (f : Nat → Nat) : State :=
  (List.range 16).foldl (fun s k =>
    match layerOffset s t k with
    | none => s
    | some v => s.setLmem (coreOf t) (lmemBase t + 32 + 2 * k) (leBytes 2 (f v))) s

/-! ### Key (R113, R140) -/

def keyNib (k : BitVec 640) (n : Nat) : BitVec 4 := BitVec.ofNat 4 (bitsOf k.toNat (4 * n) 4)

/-- Nibbles 0 to KPOS − 1 of K. -/
def keyNibs (th : Thread) : List (BitVec 4) := (List.range th.kpos).map (keyNib th.key)

/-- Append nibbles at KPOS; those at 160 or beyond are dropped (R140). -/
def keyAppend (th : Thread) (ns : List (BitVec 4)) : Thread :=
  ns.foldl (fun th n =>
    if th.kpos < 160 then
      { th with key := BitVec.ofNat 640 (putBits th.key.toNat (4 * th.kpos) 4 n.toNat), kpos := th.kpos + 1 }
    else th) th

/-! ### Ticket bytes (R133 to R135) -/

/-- Store a ticket byte as a program's STT does: hardware-written bits stay (R135). -/
def sttByte (tk : BitVec 1024) (i v : Nat) : BitVec 1024 :=
  if (4 ≤ i ∧ i ≤ 11) ∨ (28 ≤ i ∧ i ≤ 45) ∨ 128 ≤ i then tk
  else if i = 2 then tkPut (tkPut tk 2 0 5 v) 2 7 1 (v / 128)
  else tkPut tk i 0 8 v

/-- Store `n` bytes of `v` from ticket byte `i`. -/
def sttBytes (tk : BitVec 1024) (i n v : Nat) : BitVec 1024 :=
  (List.range n).foldl (fun tk k => sttByte tk (i + k) (v / 256 ^ k % 256)) tk

/-! ### Channel bindings (R92, R148) -/

/-- The slot a thread fetches from: its packet's coat, or the slot it holds (R117, R118). -/
def threadSlot (s : State) (t : Tid) : Nat :=
  match (s.thread t).job with
  | some j => j.slot
  | none => (s.thread t).held.getD (activeSlot s)

/-- What channel `ch` of the thread's core is bound to by its coat. -/
def binding (s : State) (t : Tid) (ch : Nat) : Binding :=
  let bs := (coatOf s (threadSlot s t)).binds
  let hit (b : BindDecl) : Bool :=
    b.ch == ch && (match t with
      | .packet slice core _ => b.core == .packet slice core
      | .steward die core _ => b.core == .steward die core)
  match bs.find? hit with
  | some b => b.bindTo
  | none => .unbound

/-! ### Fetch and issue (R117 to R126) -/

/-- Words of the memory a thread fetches from. -/
def codeSize (t : Tid) : Nat := if isSteward t then 65536 else 131072

/-- Key of a code word of a thread's memory. -/
def codeKey (t : Tid) (a : Nat) : Nat :=
  match t with
  | .packet n _ _ => pairKey n (a % 131072)
  | .steward die core _ => pairKey (4 * die + core) (a % 65536)

/-- Word `a` of the memory a thread fetches from, and whether its parity is wrong. -/
def codeWord (s : State) (t : Tid) (a : Nat) : BitVec 32 × Bool :=
  let c := coatOf s (threadSlot s t)
  let k := codeKey t a
  if isSteward t then (Sparse.get 0 c.steward k, Sparse.get false c.stewardBad k)
  else (Sparse.get 0 c.code k, Sparse.get false c.codeBad k)

/-- The word a thread fetches at its PC, and whether its parity is wrong (R105, R166). -/
def fetchWord (s : State) (t : Tid) : BitVec 32 × Bool :=
  let th := s.thread t
  match th.oldNext with
  | some (a, w) => if a = th.pc then w else codeWord s t th.pc
  | none => codeWord s t th.pc

/-- Store a word with correct parity into the memory a thread fetches from (R165, R168). -/
def State.setCode (s : State) (t : Tid) (a : Nat) (w : BitVec 32) : State :=
  let k := codeKey t a
  s.updCoat (threadSlot s t) (fun c =>
    if isSteward t then
      { c with steward := Sparse.set 0 c.steward k w, stewardBad := Sparse.set false c.stewardBad k false }
    else { c with code := Sparse.set 0 c.code k w, codeBad := Sparse.set false c.codeBad k false })

/-- A thread can issue: it holds a packet, or is a running steward thread, and is not blocked (R83, R104). -/
def canIssue (s : State) (t : Tid) : Bool :=
  let th := s.thread t
  decide (th.blocked = .none) &&
  (match t with
    | .packet .. => th.job.isSome
    | .steward .. => decide (th.run = .running))

/-- Who may issue an instruction (R125). -/
inductive Who where
  | any | packetOnly | stewardOnly
  deriving DecidableEq, Repr

def Who.allows (w : Who) (t : Tid) : Bool :=
  match w with
  | .any => true
  | .packetOnly => !isSteward t
  | .stewardOnly => isSteward t

/-- Count the issue slots an instruction uses (events 1,220 and 1,221). -/
def countSlots (s : State) (t : Tid) (n : Nat) : State :=
  match t, (s.thread t).job with
  | .packet slice _ _, some j => s.count 1220 (some slice) n { j.pkt.attr with master := some (masterOf t) }
  | .packet slice _ _, none => s.count 1220 (some slice) n { master := some (masterOf t) }
  | .steward die core _, _ => s.count 1221 (some (4 * die + core)) n { master := some (masterOf t) }

/-- The state in which an instruction's own effect takes place: its slots counted, PC at the next word, the
old form after a CST used up, its address and word kept. -/
def issued (s : State) (t : Tid) (slots : Nat) : State :=
  (countSlots s t slots).updThread t (fun th => { th with
    pc := (th.pc + 1) % codeSize t
    oldNext := none
    instr := (th.pc, (fetchWord s t).1) })

/-- A thread issues the instruction `word` (R123 to R126): a wrong parity at fetch is fault 3; an undefined
opcode, a field outside its legal set or a thread of the wrong kind is fault 1; otherwise `body` is the
effect. When the thread cannot issue, or its PC holds another instruction, nothing happens. -/
def issue (s : State) (t : Tid) (word : BitVec 32) (who : Who) (slots : Nat) (legal : Bool)
    (body : State → State) : State :=
  if canIssue s t then
    let fw := fetchWord s t
    let pc := (s.thread t).pc
    if fw.2 then threadFault s t 3 pc fw.1 0
    else if !opcodeDefined (fw.1.toNat / 2 ^ 25) then threadFault s t 1 pc fw.1 0
    else if fw.1 ≠ word then s
    else if !who.allows t || !legal then threadFault s t 1 pc word 0
    else body (issued s t slots)
  else s

end Sys2Proof.Machine
end

