-- ==== Sys2Proof/Machine/Tables.lean ====
section
/-! DEFINITION. Forwarding tables: descriptors, placement, coat membership, staged and live changes, and the
nibble trie's routes (R221 to R260). -/

namespace Sys2Proof.Machine

/-! ### Descriptors (R223) -/

def descWord (s : State) (t w : Nat) : Nat := (Sparse.get (0 : Word) s.lk.tdesc (t * 4 + w)).toNat

def State.setDescWord (s : State) (t w v : Nat) : State :=
  { s with lk := { s.lk with tdesc := Sparse.set (0 : Word) s.lk.tdesc (t * 4 + w) (BitVec.ofNat 64 v) } }

def tblKind (s : State) (t : Nat) : Nat := bitsOf (descWord s t 0) 0 2
def tblFamily (s : State) (t : Nat) : Nat := bitsOf (descWord s t 0) 2 1
def tblHome (s : State) (t : Nat) : Nat := bitsOf (descWord s t 0) 3 1
def tblKeyW (s : State) (t : Nat) : Nat := bitsOf (descWord s t 0) 4 8
def tblLog2 (s : State) (t : Nat) : Nat := bitsOf (descWord s t 0) 12 5
def tblBase (s : State) (t : Nat) : Nat := bitsOf (descWord s t 0) 20 25
def tblLearnEn (s : State) (t : Nat) : Bool := bitAt (descWord s t 1) 0
def tblAgeEn (s : State) (t : Nat) : Bool := bitAt (descWord s t 1) 1
def tblRealm (s : State) (t : Nat) : Nat := bitsOf (descWord s t 1) 2 6
def tblMaxAge (s : State) (t : Nat) : Nat := bitsOf (descWord s t 1) 8 15
def tblLearnLimit (s : State) (t : Nat) : Nat := bitsOf (descWord s t 1) 32 25
def tblCoat (s : State) (t : Nat) : Nat := bitsOf (descWord s t 2) 0 2

/-- Word 0 of a descriptor as stored (R223). -/
def clampGeom (v : Nat) : Nat :=
  let kind := bitsOf v 0 2
  let fam := bitsOf v 2 1
  let home := bitsOf v 3 1
  let kw := bitsOf v 4 8
  let kw := if kind = 1 then clampRange 1 5 kw else if kind = 2 then clampRange 1 64 kw
    else if kind = 3 then (if fam = 0 then 11 else 35) else kw
  let lg := clampRange 4 (if home = 0 then 19 else 23) (bitsOf v 12 5)
  let base := clampStep 0 (if home = 0 then 2 ^ 21 - 1 else 2 ^ 25 - 1) 4 (bitsOf v 20 25)
  kind + fam * 4 + home * 8 + kw * 16 + lg * 2 ^ 12 + base * 2 ^ 20

/-- Word 1 of a descriptor as stored. -/
def clampPolicy (v : Nat) : Nat :=
  bitsOf v 0 8 + clampRange 1 32767 (bitsOf v 8 15) * 2 ^ 8 + bitsOf v 32 25 * 2 ^ 32

/-- Slots of a home (R226). -/
def homeSize (home : Nat) : Nat := if home = 0 then 2097152 else 33554432

/-- The membership bit of a coat slot (R227). -/
def coatBit (slot : Nat) : Nat := 2 ^ slot
def bitA (s : State) : Nat := coatBit (activeSlot s)
def bitS (s : State) : Nat := coatBit (stagedSlot s)

/-- Does a COAT field include a slot's bit? -/
def inCoat (coat slot : Nat) : Bool := bitAt coat slot

/-- A table of a coat (R222). -/
def isTableOf (s : State) (t slot : Nat) : Bool := tblKind s t != 0 && inCoat (tblCoat s t) slot

/-! ### Entries of INDEX and HASH tables -/

def entryAt (s : State) (home n : Nat) : Option Entry := Sparse.get none s.lk.slots (pairKey home n)

def State.setEntry (s : State) (home n : Nat) (e : Option Entry) : State :=
  { s with lk := { s.lk with slots := Sparse.set none s.lk.slots (pairKey home n) e } }

/-- An entry takes two slots when its key is above 32 nibbles (R239). -/
def Entry.wide (e : Entry) : Bool := decide (32 < e.key.length)

/-- A slot is in use: by an entry, or as the second slot of the one before it. -/
def slotUsed (s : State) (home n : Nat) : Bool :=
  (entryAt s home n).isSome ||
  (n % 2 == 1 && match entryAt s home (n - 1) with
    | some e => e.wide
    | none => false)

/-- A key cut or padded with zero nibbles to a table's key width (R202). -/
def fitKey (s : State) (t : Nat) (k : List (BitVec 4)) : List (BitVec 4) := nibSlice k 0 (tblKeyW s t)

/-- The two bucket numbers of a HASH key (R249). -/
def hashBuckets (s : State) (t : Nat) (k : List (BitVec 4)) : Nat × Nat :=
  let b := bytesOfNibs k
  let h1 := crc32cRun 0xFFFFFFFF b ^^^ 0xFFFFFFFF
  let h2 := crc32cRun (0x5A5A0000 + t) b ^^^ 0xFFFFFFFF
  (h1 % 2 ^ tblLog2 s t, h2 % 2 ^ tblLog2 s t)

/-- The slots at which entries of bucket `b` may stand: its ways, or ways 0 and 2 for two-slot entries. -/
def bucketSlots (s : State) (t b : Nat) : List Nat :=
  let first := tblBase s t + 4 * b
  let sz := homeSize (tblHome s t)
  (if 32 < tblKeyW s t then [0, 2] else [0, 1, 2, 3]).map (fun w => (first + w) % sz)

/-- The slots at which a key's entries may stand, in the order searched (R247, R249). -/
def keySlots (s : State) (t : Nat) (k : List (BitVec 4)) : List Nat :=
  match tblKind s t with
  | 1 =>
    let i := nibsNat k
    let sz := homeSize (tblHome s t)
    [(tblBase s t + 2 * i) % sz, (tblBase s t + 2 * i + 1) % sz]
  | 2 =>
    let b := hashBuckets s t k
    bucketSlots s t b.1 ++ (if b.1 = b.2 then [] else bucketSlots s t b.2)
  | _ => []

/-- A slot has room for an entry of a table. -/
def slotFree (s : State) (t n : Nat) : Bool :=
  let home := tblHome s t
  !slotUsed s home n && (decide (tblKeyW s t ≤ 32) || !slotUsed s home (n + 1))

/-- The other bucket's slots of the entry at slot `n` (R251). -/
def otherSlots (s : State) (t n : Nat) : List Nat :=
  match entryAt s (tblHome s t) n with
  | none => []
  | some e =>
    let b := hashBuckets s t e.key
    if b.1 = b.2 then []
    else if (bucketSlots s t b.1).contains n then bucketSlots s t b.2 else bucketSlots s t b.1

/-- Breadth-first search for a chain of moves that frees a way: paths from the slot to be emptied back to the
way the new entry takes; an answer starts with the free way (R251). -/
def cuckooSearch (s : State) (t : Nat) : Nat → List (List Nat) → List Nat → Option (List Nat)
  | 0, _, _ => none
  | _, [], _ => none
  | fuel + 1, p :: ps, seen =>
    match p with
    | [] => cuckooSearch s t fuel ps seen
    | n :: _ =>
      let outs := otherSlots s t n
      match outs.find? (slotFree s t) with
      | some w => some (w :: p)
      | none =>
        let more := outs.filter (fun m => !seen.contains m &&
          (match entryAt s (tblHome s t) m with
            | some e => e.table == t
            | none => false))
        let more' := if p.length < 32 then more.map (· :: p) else []
        cuckooSearch s t fuel (ps ++ more') (seen ++ more)

/-- Make the moves of a chain: each entry to the slot before it in the chain (R252). -/
def cuckooMove (s : State) (t : Nat) : List Nat → State
  | w :: n :: rest =>
    let home := tblHome s t
    let e := entryAt s home n
    cuckooMove ((s.setEntry home w e).setEntry home n none) t (n :: rest)
  | _ => s

/-- A slot for a new entry of a key, after the moves it needs; `none` when there is none (R244, R251). -/
def placeSlot (s : State) (t : Nat) (k : List (BitVec 4)) : Option (State × Nat) :=
  let cand := keySlots s t k
  match cand.find? (slotFree s t) with
  | some n => some (s, n)
  | none =>
    if tblKind s t ≠ 2 then none
    else
      let own := cand.filter (fun n =>
        match entryAt s (tblHome s t) n with
        | some e => e.table == t
        | none => false)
      match cuckooSearch s t (s.lk.slots.length + 1) (own.map (fun n => [n])) own with
      | none => none
      | some chain => some (cuckooMove s t chain, chain.getLast?.getD 0)

/-! ### Routes (R254, R255) -/

def routeAt (s : State) (u : Nat) : Option Route := Sparse.get none s.lk.routes u

/-- Address bits of a family. -/
def famBits (fam : Nat) : Nat := if fam = 0 then 32 else 128

/-- VRF group of a VRF: the direct stage that serves it (R256). -/
def vrfGroup (s : State) (fam vrf : Nat) : Nat := s.rd F.LK_VRF_MAP.GROUP (fam * 4096 + vrf)

/-- A direct stage, by replica, family and group (R256, R258). -/
def stageKey (replica fam group : Nat) : Nat := replica + 4 * (fam * 16 + group)

/-- The route units that a replica of a direct stage leads to. -/
def stageUnits (s : State) (replica fam group : Nat) : List Nat := Sparse.get [] s.lk.stages (stageKey replica fam group)

/-- A unit joins a direct stage: the write reaches all four replicas at once (R258). -/
def joinStage (m : Sparse (List Nat)) (fam group u : Nat) : Sparse (List Nat) :=
  (List.range 4).foldl (fun m r => Sparse.upd [] m (stageKey r fam group) (fun l => u :: l.filter (· != u))) m

/-- A unit leaves the direct stages. -/
def leaveStages (m : Sparse (List Nat)) (u : Nat) : Sparse (List Nat) := Sparse.mapAll [] (·.filter (· != u)) m

/-- A route stands in the stage of its VRF's group. -/
def routeStage (s : State) (m : Sparse (List Nat)) (u : Nat) (r : Route) : Sparse (List Nat) :=
  joinStage m (tblFamily s r.table) (vrfGroup s (tblFamily s r.table) r.vrf) u

/-- A unit holds a route, or none. A route that is new joins its stage, a route that goes leaves it. -/
def State.setRoute (s : State) (u : Nat) (r : Option Route) : State :=
  let stages :=
    match routeAt s u, r with
    | none, some x => routeStage s s.lk.stages u x
    | some _, none => leaveStages s.lk.stages u
    | _, _ => s.lk.stages
  { s with lk := { s.lk with routes := Sparse.set none s.lk.routes u r, stages := stages } }

/-- The stages of the routes as they stand. -/
def stagesOf (s : State) : Sparse (List Nat) :=
  s.lk.routes.foldl (fun m e =>
    match e.2 with
    | some r => routeStage s m e.1 r
    | none => m) []

/-- The routes of a VRF move to the stage of its group (R260). -/
def moveVrf (s : State) (fam vrf : Nat) : State :=
  s.lk.routes.foldl (fun s e =>
    match e.2 with
    | some r =>
      if r.vrf = vrf ∧ tblFamily s r.table = fam then
        { s with lk := { s.lk with stages := routeStage s (leaveStages s.lk.stages e.1) e.1 r } }
      else s
    | none => s) s

/-- Route units a route of a table takes. -/
def routeUnits (s : State) (t : Nat) : Nat := if tblFamily s t = 0 then 1 else 2

/-- Is unit `u` in use, by a route there or as the second unit of an IPv6 route? -/
def unitUsed (s : State) (u : Nat) : Bool :=
  (routeAt s u).isSome || (u % 2 == 1 && match routeAt s (u - 1) with
    | some r => routeUnits s r.table == 2
    | none => false)

/-- The lowest free place for a route, looking at `fuel` places from `u`. -/
def freeUnit (s : State) (step : Nat) : Nat → Nat → Option Nat
  | 0, _ => none
  | fuel + 1, u =>
    if 8388608 < u + step then none
    else if unitUsed s u || (step == 2 && unitUsed s (u + 1)) then freeUnit s step fuel (u + step)
    else some u

/-- Route units in use (LK_LPM_STATUS). -/
def unitsUsed (s : State) : Nat :=
  sumOf (s.lk.routes.map (fun e => match e.2 with
    | some r => routeUnits s r.table
    | none => 0))

/-! ### Items: what every kind of table holds under a key -/

/-- A key as a table of its kind sees it. -/
inductive EKey where
  | nibs (k : List (BitVec 4))
  | route (vrf pfx plen : Nat)
  deriving DecidableEq, Repr

/-- Where an item stands. -/
inductive Loc where
  | slot (home n : Nat)
  | unit (u : Nat)
  deriving DecidableEq, Repr

structure Item where
  data : Word
  coat : Nat
  ts : Nat
  learned : Bool
  deriving DecidableEq, Repr

/-- Key nibbles and prefix length as the table's key (R241, R254). -/
def mkKey (s : State) (t : Nat) (ns : List (BitVec 4)) (plen : Nat) : EKey :=
  if tblKind s t = 3 then
    let w := famBits (tblFamily s t)
    let k := nibSlice ns 0 (3 + w / 4)
    let pl := min plen w
    let addr := nibsNat (k.drop 3)
    .route (nibsNat (k.take 3)) (addr / 2 ^ (w - pl) * 2 ^ (w - pl)) pl
  else .nibs (fitKey s t ns)

/-- Every item of a key, in either coat (R228). -/
def itemsOf (s : State) (t : Nat) (k : EKey) : List (Loc × Item) :=
  match k with
  | .nibs ns =>
    (keySlots s t ns).filterMap (fun n =>
      match entryAt s (tblHome s t) n with
      | some e => if e.table = t ∧ e.key = ns then some (.slot (tblHome s t) n, ⟨e.data, e.coat, e.ts, e.learned⟩)
          else none
      | none => none)
  | .route vrf pfx plen =>
    s.lk.routes.filterMap (fun e =>
      match e.2 with
      | some r => if r.table = t ∧ r.vrf = vrf ∧ r.pfx = pfx ∧ r.plen = plen then
          some (.unit e.1, ⟨r.data, r.coat, r.ts, false⟩) else none
      | none => none)

/-- Store an item where it stands; an item left with COAT 0 is freed (R227). -/
def setItem (s : State) (l : Loc) (it : Item) : State :=
  match l with
  | .slot home n =>
    match entryAt s home n with
    | none => s
    | some e => s.setEntry home n (if it.coat = 0 then none else
        some { e with data := it.data, coat := it.coat, ts := it.ts, learned := it.learned })
  | .unit u =>
    match routeAt s u with
    | none => s
    | some r => s.setRoute u (if it.coat = 0 then none else
        some { r with data := it.data, coat := it.coat, ts := it.ts })

/-- Place a new item; `none` when no place exists (R244, R251, R255). -/
def placeItem (s : State) (t : Nat) (k : EKey) (it : Item) : Option State :=
  match k with
  | .nibs ns =>
    (placeSlot s t ns).map (fun r =>
      r.1.setEntry (tblHome s t) r.2 (some ⟨t, ns, it.data, it.ts, it.coat, it.learned⟩))
  | .route vrf pfx plen =>
    (freeUnit s (routeUnits s t) (2 * s.lk.routes.length + 2) 0).map (fun u =>
      s.setRoute u (some ⟨t, vrf, pfx, plen, it.data, it.ts, it.coat⟩))

/-- Index of an item as ADDR and TABLE_OP READ name it (R248, R250, R254). -/
def locAddr (s : State) (t : Nat) (l : Loc) : Nat :=
  match l with
  | .slot home n =>
    let d := (n + homeSize home - tblBase s t) % homeSize home
    if tblKind s t = 1 then d / 2 else d
  | .unit u => u

/-- Slots or route units a table uses (R223 word 3). -/
def tblUsed (s : State) (t : Nat) : Nat :=
  sumOf (s.lk.slots.map (fun e => match e.2 with
    | some x => if x.table = t then (if x.wide then 2 else 1) else 0
    | none => 0)) +
  sumOf (s.lk.routes.map (fun e => match e.2 with
    | some r => if r.table = t then routeUnits s t else 0
    | none => 0))

/-- Learned entries of a table. -/
def tblLearned (s : State) (t : Nat) : Nat :=
  (s.lk.slots.filter (fun e => match e.2 with
    | some x => x.table == t && x.learned
    | none => false)).length

/-! ### Staged and live changes (R229 to R234) -/

/-- Results of TABLE_OP (R241). -/
inductive TResult where
  | ok | exists_ | notFound | full | noTable | active
  deriving DecidableEq, Repr

def TResult.code : TResult → Nat
  | .ok => 0
  | .exists_ => 1
  | .notFound => 2
  | .full => 3
  | .noTable => 4
  | .active => 5

/-- The ageing clock (R264). -/
def ageNow (s : State) : Nat := s.rd F.LK_AGE_CTRL.NOW 0

/-- The item of a key that a coat slot sees. -/
def itemSeen (s : State) (t : Nat) (k : EKey) (slot : Nat) : Option (Loc × Item) :=
  (itemsOf s t k).find? (fun e => inCoat e.2.coat slot)

/-- A staged write (R229). -/
def stagedWrite (s : State) (t : Nat) (k : EKey) (v : Word) : State × TResult :=
  match itemSeen s t k (stagedSlot s) with
  | none =>
    match placeItem s t k ⟨v, bitS s, ageNow s, false⟩ with
    | some s' => (s', .ok)
    | none => (s, .full)
  | some (l, it) =>
    if it.coat = bitS s then (setItem s l ⟨v, it.coat, ageNow s, false⟩, .ok)
    else if it.data = v then (s, .ok)
    else
      match placeItem s t k ⟨v, bitS s, ageNow s, false⟩ with
      | none => (s, .full)
      | some s' =>
        -- a move made by the placement may have taken the old item to its other way
        match (itemsOf s' t k).find? (fun e => e.2.coat == it.coat) with
        | some (l', it') => (setItem s' l' { it' with coat := bitA s }, .ok)
        | none => (s', .ok)

/-- A staged delete (R229). -/
def stagedDelete (s : State) (t : Nat) (k : EKey) : State × TResult :=
  match itemSeen s t k (stagedSlot s) with
  | none => (s, .notFound)
  | some (l, it) => (setItem s l { it with coat := it.coat - bitS s }, .ok)

/-- A live write: exactly one item of the key is left, a member of both coats (R232). An item that stays keeps
its LEARNED mark; a new one takes `learned`. -/
def liveWrite (s : State) (t : Nat) (k : EKey) (v : Word) (learned : Bool) : State × TResult :=
  let keep := (itemSeen s t k (activeSlot s)).orElse (fun _ => itemSeen s t k (stagedSlot s))
  match keep with
  | some (l, it) =>
    let s := (itemsOf s t k).foldl (fun s e => if e.1 = l then s else setItem s e.1 { e.2 with coat := 0 }) s
    (setItem s l ⟨v, 3, ageNow s, it.learned⟩, .ok)
  | none =>
    match placeItem s t k ⟨v, 3, ageNow s, learned⟩ with
    | some s' => (s', .ok)
    | none => (s, .full)

/-- A live delete frees every item of the key (R232). -/
def liveDelete (s : State) (t : Nat) (k : EKey) : State × TResult :=
  match itemsOf s t k with
  | [] => (s, .notFound)
  | es => (es.foldl (fun s e => setItem s e.1 { e.2 with coat := 0 }) s, .ok)

/-- REALIGN's rule for one COAT field (R234). -/
def realignCoat (s : State) (coat : Nat) : Nat :=
  if coat = bitS s then 0 else if coat = bitA s then 3 else coat

/-- REALIGN of every INDEX, HASH and LPM item of the tables that `p` holds of. -/
def realignItems (s : State) (p : Nat → Bool) : State :=
  let s := s.lk.slots.foldl (fun s e =>
    match e.2 with
    | some x =>
      if p x.table then
        let c := realignCoat s x.coat
        { s with lk := { s.lk with
            slots := Sparse.set none s.lk.slots e.1 (if c = 0 then none else some { x with coat := c }) } }
      else s
    | none => s) s
  s.lk.routes.foldl (fun s e =>
    match e.2 with
    | some x =>
      if p x.table then
        let c := realignCoat s x.coat
        s.setRoute e.1 (if c = 0 then none else some { x with coat := c })
      else s
    | none => s) s

/-- Free a table descriptor and every entry that its number owns (R227). -/
def freeTable (s : State) (t : Nat) : State :=
  let units := s.lk.routes.filter (fun e => match e.2 with
    | some x => x.table == t
    | none => false)
  let s := units.foldl (fun s e => s.setRoute e.1 none) s
  let s := (((s.setDescWord t 0 0).setDescWord t 1 0).setDescWord t 2 0)
  { s with lk := { s.lk with
      slots := s.lk.slots.filter (fun e => match e.2 with
        | some x => x.table != t
        | none => true) } }

/-- Store a descriptor's COAT field; 0b00 frees the table (R227). -/
def setTableCoat (s : State) (t coat : Nat) : State :=
  if coat = 0 then freeTable s t else s.setDescWord t 2 coat

/-- A staged write of a descriptor word (R224, R225, R236). -/
def writeDesc (s : State) (t w v : Nat) : State :=
  match w with
  | 0 =>
    if inCoat (tblCoat s t) (activeSlot s) || tblUsed s t != 0 then s.count 195 none 1 {}
    else s.setDescWord t 0 (clampGeom v)
  | 1 => s.setDescWord t 1 (clampPolicy v)
  | 2 =>
    let c := tblCoat s t
    setTableCoat s t (setBit c (stagedSlot s) (bitAt v (stagedSlot s)))
  | _ => s

/-! ### Lookup of one key (R248, R250, R254 to R258) -/

/-- The replica of the direct stages that serves a slice (R258). -/
def replicaOf (slice : Nat) : Nat := if slice < 5 then 0 else if slice < 9 then 1 else if slice < 13 then 2 else 3

/-- The groups whose stages serve a VRF: its own, and those that a move under way leaves (R256, R260). -/
def servingGroups (s : State) (fam vrf : Nat) : List Nat :=
  (vrfGroup s fam vrf :: s.lk.routeQ.filterMap (fun j =>
    match j with
    | .vrf f v g => if f = fam ∧ v = vrf then some g else none
    | .op .. => none)).eraseDups

/-- A route covers an address. -/
def Route.covers (r : Route) (w addr : Nat) : Bool := addr / 2 ^ (w - r.plen) == r.pfx / 2 ^ (w - r.plen)

/-- The routes of a table and VRF that the direct stages of a replica lead to; the level after a stage that serves
several VRFs tells these apart (R256). -/
def stageRoutes (s : State) (replica t vrf : Nat) : List (Nat × Route) :=
  (servingGroups s (tblFamily s t) vrf).flatMap (fun g =>
    (stageUnits s replica (tblFamily s t) g).filterMap (fun u =>
      match routeAt s u with
      | some r => if r.table = t ∧ r.vrf = vrf then some (u, r) else none
      | none => none))

/-- Of the routes of a packet's coat that cover an address, the longest (R254). -/
def longestRoute (rs : List (Nat × Route)) (w slot addr : Nat) : Option (Nat × Route) :=
  (rs.filter (fun e => inCoat e.2.coat slot && e.2.covers w addr)).foldl (fun b e =>
    match b with
    | some x => if x.2.plen < e.2.plen then some e else b
    | none => some e) none

/-- The stack C levels that an IPv6 lookup reads, each by a route that calls for it (R257). -/
def deepLevels (rs : List (Nat × Route)) (fam addr : Nat) : List (Nat × Nat) :=
  if fam = 0 then []
  else [1, 2, 3, 4].filterMap (fun j =>
    let b := 64 + 16 * (j - 1)
    (rs.find? (fun e => decide (b < e.2.plen) && e.2.pfx / 2 ^ (128 - b) == addr / 2 ^ (128 - b))).map
      (fun e => (j, e.1)))

/-- VRF and address of an LPM key. -/
def lpmKey (s : State) (t : Nat) (key : List (BitVec 4)) : Nat × Nat :=
  let k := nibSlice key 0 (3 + famBits (tblFamily s t) / 4)
  (nibsNat (k.take 3), nibsNat (k.drop 3))

/-- The item of a lookup key in a table that a packet of coat `slot` finds, with its index; `replica` is that of the
slice that asks. -/
def tableLookup (s : State) (replica t slot : Nat) (key : List (BitVec 4)) : Option (Loc × Item × Nat) :=
  if tblKind s t = 3 then
    let k := lpmKey s t key
    (longestRoute (stageRoutes s replica t k.1) (famBits (tblFamily s t)) slot k.2).map
      (fun b => (.unit b.1, ⟨b.2.data, b.2.coat, b.2.ts, false⟩, b.1))
  else
    (itemSeen s t (.nibs (fitKey s t key)) slot).map (fun e => (e.1, e.2, locAddr s t e.1))

/-- The stack C blocks that a lookup reads: the slots of its key in a table there, and its trie levels (R248, R250,
R257). -/
def lookupBlocks (s : State) (replica t : Nat) (key : List (BitVec 4)) : List Nat :=
  if tblKind s t = 3 then
    let k := lpmKey s t key
    (deepLevels (stageRoutes s replica t k.1) (tblFamily s t) k.2).map (fun e => Config.trieBlock e.1 e.2)
  else if tblHome s t = 1 then
    match tblKind s t with
    | 1 => (keySlots s t (fitKey s t key)).map Config.slotBlock
    | _ =>
      let b := hashBuckets s t (fitKey s t key)
      ([b.1, b.2].eraseDups.flatMap (fun b => (List.range 4).map (fun w =>
        Config.slotBlock ((tblBase s t + 4 * b + w) % homeSize 1))))
  else []

/-- Key nibbles of the item at a place, for a follower's refresh record. -/
def locKey (s : State) (l : Loc) : List (BitVec 4) :=
  match l with
  | .slot home n => match entryAt s home n with
    | some e => e.key
    | none => []
  | .unit _ => []

/-- A lookup that hits an entry of a table with AGE_EN sets its TS (R264); a follower tells its lead once a tick
(R379). -/
def refreshHit (s : State) (t : Nat) (l : Loc) (it : Item) : State :=
  if tblAgeEn s t then
    let s' := setItem s l { it with ts := ageNow s }
    if it.ts != ageNow s then sendRefresh s' t (locKey s l) else s'
  else s

end Sys2Proof.Machine
end

