-- ==== Sys2Proof/Machine/Classify.lean ====
section
/-! DEFINITION. Classification: the region of a coat (R178 to R182), the parse graph (R183 to R192), payload
patterns (R193 to R199), table sequences (R200 to R204) and the associative banks (R205 to R220, R238). -/

namespace Sys2Proof.Machine

/-! ### The classification region -/

/-- Is byte offset `o` of the region mapped (R179, R180)? -/
def regionMapped (o : Nat) : Bool :=
  decide (o < 0x40000 ∨ (0x40000 ≤ o ∧ o < 0x40500) ∨ (0x50000 ≤ o ∧ o < 0x70000) ∨
    (0x70000 ≤ o ∧ o < 0x74000) ∨ (0x78000 ≤ o ∧ o < 0x79000) ∨ (0x80000 ≤ o ∧ o < 0x100000))

/-- A node's word as stored (R184 to R186): word `w` of the node. -/
def clampNode (w v : Nat) : Nat :=
  if w = 0 then
    bitsOf v 0 10 + clampRange 1 8 (bitsOf v 10 4) * 2 ^ 10 + bitsOf v 14 1 * 2 ^ 14 +
      clampRange 0 16 (bitsOf v 16 5) * 2 ^ 16 + bitsOf v 24 10 * 2 ^ 24 +
      clampRange 0 4 (bitsOf v 34 3) * 2 ^ 34 + clampRange 0 16 (bitsOf v 40 5) * 2 ^ 40 + bitsOf v 48 10 * 2 ^ 48
  else if w = 1 then
    bitsOf v 0 5 + bitsOf v 8 11 * 2 ^ 8 + bitsOf v 32 16 * 2 ^ 32
  else if 26 ≤ w then 0
  else
    -- edges are 12 bytes: three words hold two edges
    match (w - 2) % 3 with
    | 0 => v
    | 1 => bitsOf v 0 11 + bitsOf v 32 32 * 2 ^ 32
    | _ => bitsOf v 0 32 + bitsOf v 32 11 * 2 ^ 32

/-- A step word of a table sequence as stored (R201). -/
def clampStepWord (v : Nat) : Nat :=
  let koff := clampRange 0 160 (bitsOf v 12 8)
  let klen := clampRange 0 (160 - koff) (bitsOf v 20 8)
  let rsrc := if bitsOf v 28 2 = 3 then 0 else bitsOf v 28 2
  let roff := bitsOf v 30 4
  let rlen := clampRange 0 (16 - roff) (bitsOf v 34 5)
  let md := if bitsOf v 42 2 = 3 then 0 else bitsOf v 42 2
  bitsOf v 0 12 + koff * 2 ^ 12 + klen * 2 ^ 20 + rsrc * 2 ^ 28 + roff * 2 ^ 30 + rlen * 2 ^ 34 +
    bitsOf v 39 3 * 2 ^ 39 + md * 2 ^ 42 + bitsOf v 44 1 * 2 ^ 44

/-- A region word as stored, by its byte offset (R182). -/
def clampRegion (o v : Nat) : Nat :=
  if o < 0x40000 then clampNode (o / 8 % 32) v
  else if o < 0x50000 then bitsOf v 0 20 + bitsOf v 32 20 * 2 ^ 32
  else if o < 0x70000 then
    let w := o / 8 % 16
    if w = 0 then clampRange 0 8 (bitsOf v 0 4) else if w < 9 then clampStepWord v else 0
  else if o < 0x78000 then
    let w := o / 8 % 8
    if w < 3 then v
    else if w = 3 then
      (if bitsOf v 0 2 = 3 then 0 else bitsOf v 0 2) + bitsOf v 2 1 * 4 + bitsOf v 8 5 * 2 ^ 8 +
        bitsOf v 15 1 * 2 ^ 15 + bitsOf v 16 1 * 2 ^ 16
    else 0
  else if o < 0x80000 then
    if o / 8 % 2 = 1 then 0
    else
      let first := bitsOf v 0 12
      first + clampRange 0 (4096 - first) (bitsOf v 16 13) * 2 ^ 16 +
        clampRange 1 2048 (bitsOf v 32 12) * 2 ^ 32 + bitsOf v 44 1 * 2 ^ 44
  else
    let w := o / 8 % 16
    if w < 12 then v
    else if w = 12 then
      clampRange 1 48 (bitsOf v 0 8) + bitsOf v 8 2 * 2 ^ 8 + clampRange 0 2047 (bitsOf v 16 16) * 2 ^ 16
    else 0

/-- The region word at a byte offset that is a multiple of 8. -/
def regionWord (c : Coat) (o : Nat) : Nat := (Sparse.get (0 : Word) c.region (o / 8)).toNat

/-- `n` bytes of the region from byte offset `o`, as a little-endian number. -/
def regionNat (c : Coat) (o n : Nat) : Nat :=
  (List.range n).foldl (fun a i => a + bitsOf (regionWord c (o + i)) (8 * ((o + i) % 8)) 8 * 256 ^ i) 0

/-- Store a region word of a slot, clamped (R182). -/
def setRegion (c : Coat) (o v : Nat) : Coat :=
  { c with region := Sparse.set (0 : Word) c.region (o / 8) (BitVec.ofNat 64 (clampRegion o v)) }

/-! ### The parse graph -/

/-- A nibble field read by the engine: `none` when a nibble lies at or beyond the limit (R187). -/
def parseField (data : List Byte) (p w : Nat) : Option Nat :=
  if min (2 * data.length) 1024 < p + w then none else some (winRead data p w)

/-- The walk's progress. -/
structure Walk where
  status : Nat
  visits : Nat
  last : Nat
  pos : Nat
  flags : Nat
  next : Nat
  trail : List Nat
  layers : List Nat

/-- The chosen edge of a node for select field `f`: the lowest-numbered match among its EDGES (R188 step 4). -/
def chooseEdge (c : Coat) (base edges selW f : Nat) : Option (Nat × Bool) :=
  let hit := (List.range edges).find? (fun e =>
    let v := regionNat c (base + 16 + 12 * e) 4
    let m := regionNat c (base + 20 + 12 * e) 4
    let w := 2 ^ (4 * selW)
    (f &&& m) % w == (v &&& m) % w)
  hit.map (fun e =>
    let x := regionNat c (base + 24 + 12 * e) 4
    (x % 1024, bitAt x 10))

/-- The walk from node `n` at position `w.pos` (R188). -/
def walkSteps (c : Coat) (data : List Byte) : Nat → Nat → Walk → Walk
  | 0, _, w => w
  | fuel + 1, n, w =>
    let base := 256 * n
    let w0 := regionWord c base
    let w1 := regionWord c (base + 8)
    let w := { w with last := n }
    if !bitAt w0 14 then { w with status := 3 }
    else if 1023 < w.pos then { w with status := 1 }
    else
      let w := { w with
        visits := w.visits + 1
        trail := w.trail ++ [n]
        layers := if bitAt w1 4 then setAt w.layers (bitsOf w1 0 4) w.pos else w.layers
        flags := w.flags ||| bitsOf w1 32 16 }
      let edges := bitsOf w0 16 5
      let selW := bitsOf w0 10 4
      let sel := if edges = 0 then some 0 else parseField data (w.pos + bitsOf w0 0 10) selW
      match sel with
      | none => { w with status := 1 }
      | some f =>
        let edge := chooseEdge c base edges selW f
        let advW := bitsOf w0 34 3
        let adv := if advW = 0 then some 0 else parseField data (w.pos + bitsOf w0 24 10) advW
        match adv with
        | none => { w with status := 1 }
        | some v =>
          let w := { w with pos := w.pos + bitsOf w0 48 10 + v * bitsOf w0 40 5 }
          let fin := match edge with
            | some e => e.2
            | none => bitAt w1 18
          let nxt := match edge with
            | some e => e.1
            | none => bitsOf w1 8 10
          if fin then { w with status := 0 }
          else if w.visits = 48 then { w with status := 2, next := nxt }
          else walkSteps c data fuel nxt w

/-- The walk of a packet of a side and source or destination, under a coat (R183, R188). -/
def parseGraph (c : Coat) (side : Side) (obj : Nat) (data : List Byte) : Walk :=
  let e := regionNat c (0x40000 + (match side with
    | .ingress => 0
    | .egress => 0x280) + 4 * obj) 4
  walkSteps c data 49 (bitsOf e 0 10)
    ⟨3, 0, bitsOf e 0 10, bitsOf e 10 10, 0, 0xFFFF, [], List.replicate 16 0xFFFF⟩

/-- The parse record's 64 bytes (R189). -/
def parseRecord (w : Walk) : List Byte :=
  [BitVec.ofNat 8 w.status, BitVec.ofNat 8 w.visits] ++ leBytes 2 w.last ++ leBytes 2 (min w.pos 0xFFFF) ++
    leBytes 2 w.flags ++ leBytes 2 w.next ++ leBytes 6 0 ++
    (List.range 8).flatMap (fun i => leBytes 2 (w.trail.getD i 0xFFFF)) ++
    w.layers.flatMap (leBytes 2)

/-! ### Payload patterns -/

/-- A byte as NOCASE compares it (R196). -/
def foldCase (on : Bool) (b : Nat) : Nat := if on && 0x41 ≤ b && b ≤ 0x5A then b + 0x20 else b

/-- Does pattern `p` match at byte `q` (R196)? -/
def patternAt (c : Coat) (p : Nat) (data : List Byte) (start stop q : Nat) : Bool :=
  let base := 0x80000 + 128 * p
  let len := regionNat c (base + 96) 1
  let fl := regionNat c (base + 97) 1
  let off := regionNat c (base + 98) 2
  let nocase := bitAt fl 1
  decide (start + off ≤ q ∧ q + len ≤ stop) && (!bitAt fl 0 || q == start + off) &&
  (List.range len).all (fun i =>
    let m := regionNat c (base + 48 + i) 1
    foldCase nocase (data.getD (q + i) 0).toNat &&& m ==
      foldCase nocase (regionNat c (base + i) 1) &&& m)

/-- The lowest end of a match of a pattern in a scan. -/
def patternEnd (c : Coat) (p : Nat) (data : List Byte) (start stop : Nat) : Option Nat :=
  let len := regionNat c (0x80000 + 128 * p + 96) 1
  ((List.range (stop - start)).find? (fun i => patternAt c p data start stop (start + i))).map
    (fun i => start + i + len)

/-- A PMAT's answer from its pattern set: word 0's ADDR and HIT, and word 1; `none` for an undefined set
(R195 to R199). -/
def patternScan (c : Coat) (set start : Nat) (data : List Byte) : Option (Option (Nat × Nat × Nat)) :=
  let d := regionWord c (0x78000 + 16 * set)
  let first := bitsOf d 0 12
  let count := bitsOf d 16 13
  if count = 0 then none
  else
    let stop := min data.length (min 2048 (start + bitsOf d 32 12))
    let ends := (List.range count).filterMap (fun i =>
      (patternEnd c (first + i) data start stop).map (fun e => (e, first + i)))
    match ends with
    | [] => some none
    | x :: xs =>
      let best := xs.foldl (fun b y => if y.1 < b.1 then y else b) x
      some (some (best.2, best.1, if bitAt d 44 then 1 else min ends.length 65535))

/-! ### The associative banks -/

def gangEff (s : State) (bank : Nat) : Nat := s.rd (F.LK_GANG.GANG_EFF (bank / 4)) 0

/-- The gang a bank belongs to: its first bank and how many banks it has (R206). -/
def gangOf (s : State) (bank : Nat) : Nat × Nat :=
  match gangEff s bank with
  | 1 => (bank / 2 * 2, 2)
  | 2 => (bank / 4 * 4, 4)
  | _ => (bank, 1)

/-- Is bank `b` out of service? -/
def bankOos (s : State) (b : Nat) : Bool := bitAt (s.rd F.LK_BANK_OOS.OOS 0) b

/-- Is any bank of a gang out of service? -/
def gangOos (s : State) (first n : Nat) : Bool := (List.range n).any (fun j => bankOos s (first + j))

/-- Is bank `b` the first bank of a gang of `n` banks in exact-word mode `exact` (R208, R212)? -/
def gangNamed (s : State) (b n : Nat) (exact : Bool) : Bool :=
  gangOf s b == (b, n) && bitAt (s.rd F.LK_BANK_MODE.EXACT_EFF 0) b == exact

/-- Byte `i` of an associative entry. -/
def assocByte (e : BitVec 512) (i : Nat) : Nat := bitsOf e.toNat (8 * i) 8

/-- Nibble `n` of a 20-byte field of an entry that starts at byte `b`, numbered per R8. -/
def assocNib (e : BitVec 512) (b n : Nat) : Nat :=
  let x := assocByte e (b + n / 2)
  if n % 2 = 0 then x / 16 else x % 16

def assocCoat (e : BitVec 512) : Nat := bitsOf e.toNat 384 2
def assocValid (e : BitVec 512) : Bool := bitAt e.toNat 386
def assocData (e : BitVec 512) : Nat := bitsOf e.toNat 320 64

/-- A free entry (R227). -/
def assocFree (e : BitVec 512) : Bool := !assocValid e || assocCoat e == 0

/-- What the banks hold at an address. -/
def bankEntry (s : State) (addr : Nat) : BitVec 512 := Sparse.get 0 s.lk.assocBank addr

/-- Do the parts of the entry at index `i` of a gang match the key (R214)? -/
def gangMatch (s : State) (first n i : Nat) (exact : Bool) (en : Nat) (key : List (BitVec 4)) : Bool :=
  (List.range n).all (fun j =>
    let e := bankEntry s ((first + j) * 8192 + i)
    (List.range 40).all (fun m =>
      let k := (key.getD (40 * j + m) 0).toNat
      let mask := if exact then 15 else assocNib e 20 m
      !bitAt en (40 * j + m) || (k &&& mask) == (assocNib e 0 m &&& mask)))

/-- Mask length of a ternary entry (R215). -/
def maskLength (s : State) (first n i : Nat) : Nat :=
  sumOf ((List.range n).map (fun j =>
    let e := bankEntry s ((first + j) * 8192 + i)
    (bitsSet (bitsOf e.toNat 160 160) 160).length))

/-- Entries of a gang that match: index and mask length, lowest index first (R214). -/
def gangHits (s : State) (first n slot : Nat) (exact : Bool) (en : Nat) (key : List (BitVec 4)) :
    List (Nat × Nat) :=
  s.lk.assocBank.filterMap (fun e =>
    if e.1 / 8192 = first ∧ assocValid e.2 ∧ inCoat (assocCoat e.2) slot ∧
        gangMatch s first n (e.1 % 8192) exact en key then
      some (e.1 % 8192, maskLength s first n (e.1 % 8192))
    else none)

/-- A search's answer (R216): the winning address, its data, and whether the fall-back gang answered. -/
def assocSearch (s : State) (c : Coat) (profile slot : Nat) (key : List (BitVec 4)) :
    Option (Option (Nat × Nat × Bool)) :=
  let base := 0x70000 + 64 * profile
  if regionNat c (base + 26) 1 = 0 then none
  else
    let en := regionNat c base 20
    let banks := regionNat c (base + 20) 4
    let w := regionNat c (base + 24) 1
    let n := 2 ^ (w % 4)
    let fb := regionNat c (base + 25) 1
    let key := nibSlice key 0 (40 * n)
    let named := (bitsSet banks 32).filter (fun b => gangNamed s b n false)
    let up := named.filter (fun b => !gangOos s b n)
    let hits := up.flatMap (fun b => (gangHits s b n slot false en key).map (fun h => (b * 8192 + h.1, h.2)))
    let tern : Option (Nat × Nat) := hits.foldl (fun best h =>
      match best with
      | none => some h
      | some x => if x.2 < h.2 ∨ (x.2 = h.2 ∧ h.1 < x.1) then some h else best) none
    let fbBank := fb % 32
    let exact : Option Nat :=
      if bitAt fb 7 && gangNamed s fbBank n true && !gangOos s fbBank n then
        ((gangHits s fbBank n slot true en key).head?).map (fun h => fbBank * 8192 + h.1)
      else none
    let answer (a : Nat) (f : Bool) : Option (Nat × Nat × Bool) := some (a, assocData (bankEntry s a), f)
    match named.any (gangOos s · n), tern, exact with
    | true, _, some x => some (answer x true)
    | _, some t, _ => some (answer t.1 false)
    | _, none, some x => some (if bitAt w 2 then answer x true else none)
    | _, none, none => some none

/-- The committed entry at an address (R209). -/
def assocEntry (s : State) (addr : Nat) : BitVec 512 := Sparse.get 0 s.lk.assoc addr

/-- An entry as stored: FLAGS bits [7:3] and bytes 49–63 are 0 (R209). -/
def assocClamp (e : BitVec 512) : BitVec 512 := BitVec.ofNat 512 (e.toNat % 2 ^ 387)

/-- The banks of the gang to which an entry address belongs. -/
def gangBanks (s : State) (addr : Nat) : List Nat :=
  let g := gangOf s (addr / 8192)
  (List.range g.2).map (g.1 + ·)

/-- Every bank of an address's gang has room in its update queue of 64 writes (R219). -/
def queueRoom (s : State) (addr : Nat) : Bool :=
  (gangBanks s addr).all (fun b => decide ((Sparse.get [] s.lk.updates b).length < 64))

/-- A write of an entry joins the update queue of each bank of its gang, which write their parts of the index together
(R210, R219). -/
def queueWrite (s : State) (w : AssocHeld) : State :=
  let i := w.addr % 8192
  let part (b : Nat) : AssocWrite :=
    if b = w.addr / 8192 then ⟨i, w.entry, w.ring⟩ else ⟨i, assocEntry s (b * 8192 + i), none⟩
  let qs := (gangBanks s w.addr).foldl (fun m b => Sparse.upd [] m b (· ++ [part b])) s.lk.updates
  { s with lk := { s.lk with updates := qs } }

/-- A held write has a bank in common with address `addr`. -/
def heldBehind (s : State) (addr : Nat) : Bool :=
  s.lk.assocHeld.any (fun w => (gangBanks s w.addr).any (gangBanks s addr).contains)

/-- A write of an entry goes to its queues, or its path holds it until there is room, in order (R219). -/
def takeWrite (s : State) (w : AssocHeld) : State :=
  if queueRoom s w.addr && !heldBehind s w.addr then queueWrite s w
  else { s with lk := { s.lk with assocHeld := s.lk.assocHeld ++ [w] } }

/-- Held writes go to their queues as there is room. -/
def admitHeld (s : State) : State :=
  s.lk.assocHeld.foldl takeWrite { s with lk := { s.lk with assocHeld := [] } }

/-- Nobody waits any more for what the rings that `p` holds of have queued (R38). -/
def dropWaiters (l : LookupSt) (p : Nat × Nat → Bool) : LookupSt :=
  let keep (r : Option (Nat × Nat)) : Option (Nat × Nat) := r.filter (fun x => !p x)
  { l with
    routeQ := l.routeQ.map (fun j =>
      match j with
      | .op w f d => .op (keep w) f d
      | .vrf a b g => .vrf a b g)
    updates := Sparse.mapAll [] (·.map (fun u => { u with ring := keep u.ring })) l.updates
    assocHeld := l.assocHeld.map (fun u => { u with ring := keep u.ring }) }

/-- Commit an entry: readers see it at once, and its write goes to the banks (R219); `ring` waits for it (R245). -/
def assocCommit (s : State) (addr : Nat) (e : BitVec 512) (ring : Option (Nat × Nat)) : State :=
  takeWrite { s with lk := { s.lk with assoc := Sparse.set 0 s.lk.assoc addr (assocClamp e) } } ⟨addr, assocClamp e, ring⟩

/-- An entry with its COAT and VALID bits replaced. -/
def assocFlags (e : BitVec 512) (coat : Nat) (valid : Bool) : BitVec 512 :=
  BitVec.ofNat 512 (putBits e.toNat 384 3 (coat + 4 * flag valid))

/-- What a staged commit did: it was refused, nothing changed, or a write was made. -/
inductive AssocDid where
  | refused | nothing | wrote
  deriving DecidableEq, Repr

/-- A staged commit of an associative entry (R238). -/
def assocStaged (s : State) (addr : Nat) (e : BitVec 512) (ring : Option (Nat × Nat)) : State × AssocDid :=
  let old := assocEntry s addr
  let coat := assocCoat old
  if assocFree old || coat == bitS s then
    if assocValid e then (assocCommit s addr (assocFlags e (bitS s) true) ring, .wrote)
    else if assocFree old then (s, .nothing)
    else (assocCommit s addr (assocFlags old 0 false) ring, .wrote)
  else if assocValid e then (s.count 196 none 1 {}, .refused)
  else if coat == 3 then (assocCommit s addr (assocFlags old (bitA s) true) ring, .wrote)
  else (s, .nothing)

/-- REALIGN of every associative entry (R234). -/
def realignAssoc (s : State) : State :=
  s.lk.assoc.foldl (fun s e =>
    let c := assocCoat e.2
    let c' := realignCoat s c
    if assocFree e.2 || c == c' then s
    else assocCommit s e.1 (assocFlags e.2 c' (decide (c' ≠ 0))) none) s

/-! ### Table sequences -/

/-- What a table sequence has reached. -/
structure SeqRun where
  st : State
  mdata : Word
  prev : Word
  used : Nat
  hitmap : Nat
  decider : Option (Nat × Nat × Word)
  last : Nat
  status : Nat

/-- Step key (R202 step 1): K nibbles beyond KPOS are 0; a spliced part from the step before or from M. -/
def stepKey (v : Nat) (key : List (BitVec 4)) (prev m : Word) : List (BitVec 4) :=
  let kp := nibSlice key (bitsOf v 12 8) (bitsOf v 20 8)
  let src := match bitsOf v 28 2 with
    | 1 => natNibs 16 prev.toNat
    | 2 => natNibs 16 m.toNat
    | _ => []
  let sp := if bitsOf v 28 2 = 0 then [] else nibSlice src (bitsOf v 30 4) (bitsOf v 34 5)
  if bitAt v 39 then kp ++ sp else sp ++ kp

/-- A table step reads stack C: an uncorrectable block makes the step a miss (R453, R456). -/
def readStackC (s : State) (t : Nat) (blocks : List Nat) (attr : Attr) : State × Bool :=
  let r := readBlocks s 2 0 blocks { attr with tc := none }
  if blocks.any (fun b => blockBad s 2 (32 * b)) then
    (r.count 898 (some t) 1 { realm := some (tblRealm s t) }, false)
  else (r, true)

/-- What a step finds in a table, with the stack C accesses that it makes. -/
def stepLookup (s : State) (replica t slot : Nat) (key : List (BitVec 4)) (attr : Attr) :
    State × Option (Loc × Item × Nat) :=
  let r := readStackC s t (lookupBlocks s replica t key) attr
  (r.1, if r.2 then tableLookup s replica t slot key else none)

/-- Run the steps from step `i` (R202 to R204); `limit` table operations may be used, where there is one. -/
def runSteps (c : Coat) (base steps replica slot : Nat) (key : List (BitVec 4)) (limit : Option Nat) (attr : Attr) :
    Nat → Nat → SeqRun → SeqRun
  | 0, _, r => r
  | fuel + 1, i, r =>
    if steps ≤ i then r
    else if (match limit with
        | some l => decide (l ≤ r.used)
        | none => false) then { r with status := 2 }
    else
      let v := regionWord c (base + 8 + 8 * i)
      let t := bitsOf v 0 12
      let r := { r with used := r.used + 1, last := i, st := r.st.count 1222 (some t) 1 attr }
      if !isTableOf r.st t slot then { r with status := 3 }
      else
        let q := stepLookup r.st replica t slot (stepKey v key r.prev r.mdata) attr
        let r := { r with st := q.1 }
        match q.2 with
        | none =>
          let r := { r with prev := 0 }
          if bitAt v 41 then r else runSteps c base steps replica slot key limit attr fuel (i + 1) r
        | some (l, it, addr) =>
          let m := match bitsOf v 42 2 with
            | 1 => it.data
            | 2 => r.mdata ||| it.data
            | _ => r.mdata
          let r := { r with
            st := refreshHit r.st t l it
            mdata := m
            prev := it.data
            hitmap := setBit r.hitmap i true
            decider := if bitAt v 44 then some (i, addr, it.data) else r.decider }
          if bitAt v 40 then r else runSteps c base steps replica slot key limit attr fuel (i + 1) r

/-- Word 0 of a reply (R150). -/
def replyWord (hit fallback : Bool) (colour status hitmap decider ops addr : Nat) : Word :=
  BitVec.ofNat 64 (flag hit + flag fallback * 2 + colour * 4 + status * 16 + hitmap * 2 ^ 8 +
    decider * 2 ^ 16 + ops * 2 ^ 19 + addr * 2 ^ 32)

/-- Table operations that a requester has used; a steward thread has no limit (R151). -/
def opsUsed (s : State) (uid : Nat) : Nat := Sparse.get 0 s.hn.opsUsed uid

def State.setOps (s : State) (uid n : Nat) : State :=
  if uid = 0 then s else { s with hn := { s.hn with opsUsed := Sparse.set 0 s.hn.opsUsed uid n } }

/-- The limit of 24 table operations, for packet threads (R151). -/
def opsLimit (uid : Nat) : Option Nat := if uid = 0 then none else some 24

/-- The replica that a thread's lookups use; a steward thread's, the first (R258). -/
def threadReplica : Tid → Nat
  | .packet s _ _ => replicaOf s
  | .steward .. => 0

/-- An LKUP's reply (R150, R151, R202 to R204). One that is UNDEFINED has ADDR and word 1 at 0 (log entry 150). -/
def lkupAnswer (s : State) (r : Req) (seq : Nat) (m : Word) (key : List (BitVec 4)) (slot : Nat) :
    State × Word × Word :=
  let c := coatOf s slot
  let used := opsUsed s r.uid
  let ops (n : Nat) := if r.uid = 0 then 0 else n
  if r.uid ≠ 0 ∧ 24 ≤ used then (s, replyWord false false 0 1 0 0 24 0, 0)
  else
    let base := 0x50000 + 128 * seq
    let steps := regionWord c base % 16
    if steps = 0 then (s, replyWord false false 0 3 0 0 (ops used) 0, 0)
    else
      let q := runSteps c base steps (threadReplica r.tid) slot key (opsLimit r.uid) r.attr 9 0 ⟨s, m, 0, used, 0, none, 0, 0⟩
      let s := q.st.setOps r.uid q.used
      match q.decider with
      | some (i, addr, d) => (s, replyWord true false 0 q.status q.hitmap i (ops q.used) addr, d)
      | none => (s, replyWord false false 0 q.status q.hitmap q.last (ops q.used) 0xFFFFFFFF, q.mdata)

/-- An ASRCH's reply (R150, R213 to R217). -/
def asrchAnswer (s : State) (r : Req) (profile : Nat) (key : List (BitVec 4)) (slot : Nat) :
    State × Word × Word :=
  let used := opsUsed s r.uid
  if r.uid ≠ 0 ∧ 24 ≤ used then (s, replyWord false false 0 1 0 0 24 0, 0)
  else
    let s := s.setOps r.uid (used + 1)
    let ops := if r.uid = 0 then 0 else used + 1
    match assocSearch s (coatOf s slot) profile slot key with
    | none => (s, replyWord false false 0 3 0 0 ops 0, 0)
    | some a =>
      let s := s.count 1223 (some profile) 1 r.attr
      match a with
      | none => (s, replyWord false false 0 0 0 0 ops 0, 0)
      | some (addr, d, f) =>
        let s := if f then s.count 193 (some profile) 1 r.attr else s
        (s, replyWord true f 0 0 0 0 ops addr, BitVec.ofNat 64 d)

/-- A PMAT's reply (R150, R195 to R199); OPS shows the table operations the packet has used. -/
def pmatAnswer (s : State) (r : Req) (set start : Nat) (data : List Byte) (slot : Nat) (past : Bool) :
    State × Word × Word :=
  let s := s.count 1224 (some set) 1 r.attr
  let ops := if r.uid = 0 then 0 else opsUsed s r.uid
  if past then (s, replyWord false false 0 1 0 0 ops 0, 0)
  else
    match patternScan (coatOf s slot) set start data with
    | none => (s, replyWord false false 0 3 0 0 ops 0, 0)
    | some none => (s, replyWord false false 0 0 0 0 ops 0, 0)
    | some (some (p, e, n)) => (s, replyWord true false 0 0 0 0 ops p, BitVec.ofNat 64 (e + n * 65536))

end Sys2Proof.Machine
end

