-- ==== Sys2Proof/Machine/Flags.lean ====
section
/-! DEFINITION. What the integer and compare instructions compute (R127 to R129, R138): results and
predicates as functions of their operands. -/

namespace Sys2Proof.Machine

/-- Leading zero bits of a word, 64 when it is 0. -/
def clz64 (v : Word) : Word :=
  BitVec.ofNat 64 (((List.range 64).find? (fun i => v.getLsbD (63 - i))).getD 64)

/-- A word with its 8 bytes in reverse order. -/
def bswap64 (v : Word) : Word := BitVec.ofNat 64 (beNat (leBytes 8 v.toNat))

/-- CRC-32C of a word's bytes, most significant first, from `init`, with no final inversion. -/
def hash64 (a b : Word) : Word := BitVec.ofNat 64 (crc32cRun (b.toNat % 2 ^ 32) (beBytes 8 a.toNat))

/-- One end-around carry fold to 16 bits. -/
def fold16 (v : Nat) : Nat := v % 65536 + v / 65536

/-- The sum of a word's four 16-bit parts. -/
def parts16 (v : Nat) : Nat := bitsOf v 0 16 + bitsOf v 16 16 + bitsOf v 32 16 + bitsOf v 48 16

/-- Ones'-complement sum of the 16-bit parts of two words, folded to 16 bits. -/
def csum64 (a b : Word) : Word := BitVec.ofNat 64 (fold16 (fold16 (parts16 a.toNat + parts16 b.toNat)))

/-- Bit (2 × pa + pb) of PLOG's truth table. -/
def plogBit (table : Nat) (pa pb : Bool) : Bool := bitAt table (2 * flag pa + flag pb)

/-- Bits [lsb + len − 1 : lsb] of a word, right-aligned. -/
def bext64 (a : Word) (lsb len : Nat) : Word := BitVec.ofNat 64 (bitsOf a.toNat lsb len)

/-- A word with bits [lsb + len − 1 : lsb] taken from the low bits of another. -/
def bins64 (d a : Word) (lsb len : Nat) : Word := BitVec.ofNat 64 (putBits d.toNat lsb len a.toNat)

/-- The 12-bit immediate, zero-extended and sign-extended. -/
def immZ (imm : BitVec 12) : Word := imm.setWidth 64
def immS (imm : BitVec 12) : Word := imm.signExtend 64

/-- LSB and length of a bit field in an immediate (R138). -/
def bfLsb (imm : BitVec 12) : Nat := imm.toNat / 64
def bfLen (imm : BitVec 12) : Nat := imm.toNat % 64 + 1

end Sys2Proof.Machine
end

