-- ==== Sys2Proof/Machine/HenigAlu.lean ====
section
/-! DEFINITION. The integer, compare, predicate, bit-field and branch instructions (R127 to R129, R138,
R156, R157). -/

namespace Sys2Proof.Machine

/-- A three-register instruction: D takes a function of A and B. -/
def aluA (s : State) (t : Tid) (op : Nat) (f : FmtA) (slots : Nat) (legal : Bool) (g : Thread → Word → Word → Word) :
    State :=
  issue s t (encA op f) .any slots legal (fun s => s.updThread t (fun th =>
    th.setReg f.d.toNat (g th (th.reg f.a.toNat) (th.reg f.b.toNat))))

/-- A compare of two registers: predicate x[2:0] takes the outcome. -/
def cmpA (s : State) (t : Tid) (op : Nat) (f : FmtA) (g : Word → Word → Bool) : State :=
  issue s t (encA op f) .any 1 (decide (f.d = 0 ∧ f.x.toNat < 8)) (fun s => s.updThread t (fun th =>
    th.setPred (f.x.toNat % 8) (g (th.reg f.a.toNat) (th.reg f.b.toNat))))

/-- A register and immediate instruction: D takes a function of A. -/
def aluI (s : State) (t : Tid) (op : Nat) (f : FmtI) (legal : Bool) (g : Thread → Word → Word) : State :=
  issue s t (encI op f) .any 1 (legal && decide (f.p = 0)) (fun s => s.updThread t (fun th =>
    th.setReg f.d.toNat (g th (th.reg f.a.toNat))))

/-- A compare with an immediate: predicate p takes the outcome. -/
def cmpI (s : State) (t : Tid) (op : Nat) (f : FmtI) (g : Word → Bool) : State :=
  issue s t (encI op f) .any 1 (decide (f.d = 0)) (fun s => s.updThread t (fun th =>
    th.setPred f.p.toNat (g (th.reg f.a.toNat))))

/-- Jump to a word address, reduced to the thread's code memory (R120). -/
def jumpTo (t : Tid) (a : Int) (th : Thread) : Thread := { th with pc := (a % (codeSize t : Int)).toNat }

/-- The address of the instruction that a thread has just issued. -/
def ownAddr (t : Tid) (th : Thread) : Nat := (th.pc + codeSize t - 1) % codeSize t

/-- A branch's target: its own address plus the signed offset (R156). -/
def branchTo (t : Tid) (f : FmtB) (th : Thread) : Thread := jumpTo t ((ownAddr t th : Int) + f.off.toInt) th

/-- ADD. D = A + B modulo 2⁶⁴ (R115, R127). -/
def execIAdd (t : Tid) (f : FmtA) (s : State) : Host.Outcome State Fault Refusal :=
  .next (aluA s t 1 f 1 (decide (f.x = 0)) (fun _ a b => a + b))

/-- SUB. D = A − B (R127). -/
def execISub (t : Tid) (f : FmtA) (s : State) : Host.Outcome State Fault Refusal :=
  .next (aluA s t 2 f 1 (decide (f.x = 0)) (fun _ a b => a - b))

/-- AND. D = A AND B (R127). -/
def execIAnd (t : Tid) (f : FmtA) (s : State) : Host.Outcome State Fault Refusal :=
  .next (aluA s t 3 f 1 (decide (f.x = 0)) (fun _ a b => a &&& b))

/-- OR. D = A OR B (R127). -/
def execIOr (t : Tid) (f : FmtA) (s : State) : Host.Outcome State Fault Refusal :=
  .next (aluA s t 4 f 1 (decide (f.x = 0)) (fun _ a b => a ||| b))

/-- XOR. D = A XOR B (R127). -/
def execIXor (t : Tid) (f : FmtA) (s : State) : Host.Outcome State Fault Refusal :=
  .next (aluA s t 5 f 1 (decide (f.x = 0)) (fun _ a b => a ^^^ b))

/-- ANDN. D = A AND NOT B (R127). -/
def execIAndn (t : Tid) (f : FmtA) (s : State) : Host.Outcome State Fault Refusal :=
  .next (aluA s t 6 f 1 (decide (f.x = 0)) (fun _ a b => a &&& ~~~b))

/-- SHL. D = A shifted left by B[5:0] (R127). -/
def execIShl (t : Tid) (f : FmtA) (s : State) : Host.Outcome State Fault Refusal :=
  .next (aluA s t 7 f 1 (decide (f.x = 0)) (fun _ a b => a <<< (b.toNat % 64)))

/-- SHR. D = A shifted right by B[5:0], zero fill (R127). -/
def execIShr (t : Tid) (f : FmtA) (s : State) : Host.Outcome State Fault Refusal :=
  .next (aluA s t 8 f 1 (decide (f.x = 0)) (fun _ a b => a >>> (b.toNat % 64)))

/-- SAR. D = A shifted right by B[5:0], sign fill (R127). -/
def execISar (t : Tid) (f : FmtA) (s : State) : Host.Outcome State Fault Refusal :=
  .next (aluA s t 9 f 1 (decide (f.x = 0)) (fun _ a b => a.sshiftRight (b.toNat % 64)))

/-- MUL. D = low 64 bits of A × B, two slots (R127). -/
def execIMul (t : Tid) (f : FmtA) (s : State) : Host.Outcome State Fault Refusal :=
  .next (aluA s t 10 f 2 (decide (f.x = 0)) (fun _ a b => a * b))

/-- SEL. D = A if predicate x[2:0], otherwise B (R127). -/
def execISel (t : Tid) (f : FmtA) (s : State) : Host.Outcome State Fault Refusal :=
  .next (aluA s t 11 f 1 (decide (f.x.toNat < 8)) (fun th a b => if th.pred (f.x.toNat % 8) then a else b))

/-- CLZ. D = leading zero bits of A (R127). -/
def execIClz (t : Tid) (f : FmtA) (s : State) : Host.Outcome State Fault Refusal :=
  .next (aluA s t 12 f 1 (decide (f.b = 0 ∧ f.x = 0)) (fun _ a _ => clz64 a))

/-- BSWAP. D = A with its bytes reversed (R127). -/
def execIBswap (t : Tid) (f : FmtA) (s : State) : Host.Outcome State Fault Refusal :=
  .next (aluA s t 13 f 1 (decide (f.b = 0 ∧ f.x = 0)) (fun _ a _ => bswap64 a))

/-- HASH. D = CRC-32C of A from B[31:0], two slots (R127). -/
def execIHash (t : Tid) (f : FmtA) (s : State) : Host.Outcome State Fault Refusal :=
  .next (aluA s t 14 f 2 (decide (f.x = 0)) (fun _ a b => hash64 a b))

/-- CSUM. D = folded ones'-complement sum (R127). -/
def execICsum (t : Tid) (f : FmtA) (s : State) : Host.Outcome State Fault Refusal :=
  .next (aluA s t 15 f 1 (decide (f.x = 0)) (fun _ a b => csum64 a b))

/-- CEQ. P = (A = B) (R128). -/
def execICeq (t : Tid) (f : FmtA) (s : State) : Host.Outcome State Fault Refusal :=
  .next (cmpA s t 16 f (fun a b => decide (a = b)))

/-- CNE. P = (A ≠ B) (R128). -/
def execICne (t : Tid) (f : FmtA) (s : State) : Host.Outcome State Fault Refusal :=
  .next (cmpA s t 17 f (fun a b => decide (a ≠ b)))

/-- CLTU. P = (A < B) unsigned (R128). -/
def execICltu (t : Tid) (f : FmtA) (s : State) : Host.Outcome State Fault Refusal :=
  .next (cmpA s t 18 f (fun a b => decide (a.toNat < b.toNat)))

/-- CLT. P = (A < B) signed (R128). -/
def execIClt (t : Tid) (f : FmtA) (s : State) : Host.Outcome State Fault Refusal :=
  .next (cmpA s t 19 f (fun a b => decide (a.toInt < b.toInt)))

/-- PLOG. Predicate x[2:0] takes bit (2 × pa + pb) of the table x[6:3] (R128). -/
def execIPlog (t : Tid) (f : FmtA) (s : State) : Host.Outcome State Fault Refusal :=
  .next (issue s t (encA 20 f) .any 1
    (decide (f.d = 0 ∧ f.a.toNat < 8 ∧ f.b.toNat < 8 ∧ f.x.toNat < 128)) (fun s => s.updThread t (fun th =>
      th.setPred (f.x.toNat % 8) (plogBit (f.x.toNat / 8) (th.pred f.a.toNat) (th.pred f.b.toNat)))))

/-- PTOG. D[7:0] = p7…p0 (R128). -/
def execIPtog (t : Tid) (f : FmtA) (s : State) : Host.Outcome State Fault Refusal :=
  .next (aluA s t 21 f 1 (decide (f.a = 0 ∧ f.b = 0 ∧ f.x = 0)) (fun th _ _ => th.preds.setWidth 64))

/-- GTOP. p7…p0 = A[7:0] (R128). -/
def execIGtop (t : Tid) (f : FmtA) (s : State) : Host.Outcome State Fault Refusal :=
  .next (issue s t (encA 22 f) .any 1 (decide (f.d = 0 ∧ f.b = 0 ∧ f.x = 0))
    (fun s => s.updThread t (fun th => { th with preds := (th.reg f.a.toNat).setWidth 8 })))

/-- JR. Jumps to word A (R156). -/
def execIJr (t : Tid) (f : FmtA) (s : State) : Host.Outcome State Fault Refusal :=
  .next (issue s t (encA 25 f) .any 1 (decide (f.d = 0 ∧ f.b = 0 ∧ f.x = 0))
    (fun s => s.updThread t (fun th => jumpTo t ((th.reg f.a.toNat).toNat : Int) th)))

/-- ADDI. D = A + sign-extended imm (R129). -/
def execIAddi (t : Tid) (f : FmtI) (s : State) : Host.Outcome State Fault Refusal :=
  .next (aluI s t 32 f true (fun _ a => a + immS f.imm))

/-- ANDI. D = A AND imm (R129). -/
def execIAndi (t : Tid) (f : FmtI) (s : State) : Host.Outcome State Fault Refusal :=
  .next (aluI s t 33 f true (fun _ a => a &&& immZ f.imm))

/-- ORI. D = A OR imm (R129). -/
def execIOri (t : Tid) (f : FmtI) (s : State) : Host.Outcome State Fault Refusal :=
  .next (aluI s t 34 f true (fun _ a => a ||| immZ f.imm))

/-- XORI. D = A XOR imm (R129). -/
def execIXori (t : Tid) (f : FmtI) (s : State) : Host.Outcome State Fault Refusal :=
  .next (aluI s t 35 f true (fun _ a => a ^^^ immZ f.imm))

/-- SHLI. D = A shifted left by imm[5:0] (R129). -/
def execIShli (t : Tid) (f : FmtI) (s : State) : Host.Outcome State Fault Refusal :=
  .next (aluI s t 36 f (decide (f.imm.toNat < 64)) (fun _ a => a <<< (f.imm.toNat % 64)))

/-- SHRI. D = A shifted right by imm[5:0], zero fill (R129). -/
def execIShri (t : Tid) (f : FmtI) (s : State) : Host.Outcome State Fault Refusal :=
  .next (aluI s t 37 f (decide (f.imm.toNat < 64)) (fun _ a => a >>> (f.imm.toNat % 64)))

/-- SARI. D = A shifted right by imm[5:0], sign fill (R129). -/
def execISari (t : Tid) (f : FmtI) (s : State) : Host.Outcome State Fault Refusal :=
  .next (aluI s t 38 f (decide (f.imm.toNat < 64)) (fun _ a => a.sshiftRight (f.imm.toNat % 64)))

/-- ORSH. D = (A shifted left by 12) OR imm (R129). -/
def execIOrsh (t : Tid) (f : FmtI) (s : State) : Host.Outcome State Fault Refusal :=
  .next (aluI s t 39 f true (fun _ a => (a <<< 12) ||| immZ f.imm))

/-- CEQI. P = (A = imm) (R129). -/
def execICeqi (t : Tid) (f : FmtI) (s : State) : Host.Outcome State Fault Refusal :=
  .next (cmpI s t 40 f (fun a => decide (a = immZ f.imm)))

/-- CLTUI. P = (A < imm) unsigned (R129). -/
def execICltui (t : Tid) (f : FmtI) (s : State) : Host.Outcome State Fault Refusal :=
  .next (cmpI s t 41 f (fun a => decide (a.toNat < f.imm.toNat)))

/-- BEXT. D = bits [lsb + len − 1 : lsb] of A (R138). -/
def execIBext (t : Tid) (f : FmtI) (s : State) : Host.Outcome State Fault Refusal :=
  .next (aluI s t 42 f (decide (bfLsb f.imm + bfLen f.imm ≤ 64)) (fun _ a => bext64 a (bfLsb f.imm) (bfLen f.imm)))

/-- BINS. Bits [lsb + len − 1 : lsb] of D = low bits of A (R138). -/
def execIBins (t : Tid) (f : FmtI) (s : State) : Host.Outcome State Fault Refusal :=
  .next (aluI s t 43 f (decide (bfLsb f.imm + bfLen f.imm ≤ 64))
    (fun th a => bins64 (th.reg f.d.toNat) a (bfLsb f.imm) (bfLen f.imm)))

/-- BR. Branches (R156). -/
def execIBr (t : Tid) (f : FmtB) (s : State) : Host.Outcome State Fault Refusal :=
  .next (issue s t (encB 88 f) .any 1 (decide (f.s = 0 ∧ f.p = 0 ∧ f.z = 0)) (fun s => s.updThread t (branchTo t f)))

/-- BP. Branches when P equals s (R156). -/
def execIBp (t : Tid) (f : FmtB) (s : State) : Host.Outcome State Fault Refusal :=
  .next (issue s t (encB 89 f) .any 1 (decide (f.z = 0)) (fun s => s.updThread t (fun th =>
    if th.pred f.p.toNat = decide (f.s = 1) then branchTo t f th else th)))

/-- CALL. g31 = own address + 1, then branches (R114, R156). -/
def execICall (t : Tid) (f : FmtB) (s : State) : Host.Outcome State Fault Refusal :=
  .next (issue s t (encB 90 f) .any 1 (decide (f.s = 0 ∧ f.p = 0 ∧ f.z = 0)) (fun s => s.updThread t (fun th =>
    branchTo t f (th.setReg 31 (BitVec.ofNat 64 th.pc)))))

end Sys2Proof.Machine
end

