-- ==== Sys2Proof/Machine/HenigPacket.lean ====
section
/-! DEFINITION. Nibble, key, ticket, packet-edit, local-memory, system-value and program-end instructions
(R130 to R146, R158 to R168). -/

namespace Sys2Proof.Machine

/-- Change the packet a thread holds. -/
def Thread.updJob (th : Thread) (f : Job → Job) : Thread := { th with job := th.job.map f }

/-- The bytes of the packet a thread holds. -/
def Thread.pktData (th : Thread) : List Byte :=
  match th.job with
  | some j => j.pkt.data
  | none => []

/-- The ticket of the packet a thread holds. -/
def Thread.ticket (th : Thread) : BitVec 1024 :=
  match th.job with
  | some j => j.pkt.ticket
  | none => 0

def Thread.setData (th : Thread) (d : List Byte) : Thread :=
  th.updJob (fun j => { j with pkt := Pkt.withLength { j.pkt with data := d } })

/-- Legal base and width of a format-N window instruction (R130). -/
def nLegal (f : FmtN) : Bool := decide (f.base.toNat ≤ 16 ∧ 1 ≤ f.w.toNat ∧ f.w.toNat ≤ 16)

/-- Legal fields of LDT and STT (R134). -/
def tLegal (f : FmtN) : Bool :=
  decide (f.base = 0 ∧ 1 ≤ f.w.toNat ∧ f.w.toNat ≤ 16 ∧ f.w.toNat % 2 = 0 ∧ f.off.toNat % 2 = 0 ∧
    f.off.toNat + f.w.toNat ≤ 256)

/-- The window nibbles a format-N instruction reads: 0 when its layer is absent (R132). -/
def nRead (s : State) (t : Tid) (f : FmtN) : Nat :=
  match nAddr s t f with
  | some e => winRead (s.thread t).pktData e f.w.toNat
  | none => 0

/-- LDN. G = the w window nibbles at e (R133). -/
def execILdn (t : Tid) (f : FmtN) (s : State) : Host.Outcome State Fault Refusal :=
  .next (issue s t (encN 0x40 f) .packetOnly 1 (nLegal f) (fun s =>
    s.updThread t (fun th => th.setReg f.g.toNat (BitVec.ofNat 64 (nRead s t f)))))

/-- STN. The low w nibbles of G are written to the window at e (R133). -/
def execIStn (t : Tid) (f : FmtN) (s : State) : Host.Outcome State Fault Refusal :=
  .next (issue s t (encN 0x41 f) .packetOnly 1 (nLegal f) (fun s =>
    match nAddr s t f with
    | none => s
    | some e => s.updThread t (fun th =>
        th.setData (winWrite th.pktData e f.w.toNat (th.reg f.g.toNat).toNat))))

/-- KPUTN. The w window nibbles at e are appended to K (R133, R140). -/
def execIKputn (t : Tid) (f : FmtN) (s : State) : Host.Outcome State Fault Refusal :=
  .next (issue s t (encN 0x42 f) .packetOnly 1 (nLegal f && decide (f.g = 0)) (fun s =>
    s.updThread t (fun th => keyAppend th (natNibs f.w.toNat (nRead s t f)))))

/-- LDT. G = ticket bytes off/2 to off/2 + w/2 − 1, first byte least significant (R133). -/
def execILdt (t : Tid) (f : FmtN) (s : State) : Host.Outcome State Fault Refusal :=
  .next (issue s t (encN 0x43 f) .packetOnly 1 (tLegal f) (fun s =>
    s.updThread t (fun th => th.setReg f.g.toNat
      (BitVec.ofNat 64 (tkGet th.ticket (f.off.toNat / 2) 0 (f.w.toNat / 2 * 8))))))

/-- STT. The low w/2 bytes of G are written to the ticket; hardware-written bytes stay (R133, R135). -/
def execIStt (t : Tid) (f : FmtN) (s : State) : Host.Outcome State Fault Refusal :=
  .next (issue s t (encN 0x44 f) .packetOnly 1 (tLegal f) (fun s =>
    s.updThread t (fun th => th.updJob (fun j => { j with pkt := { j.pkt with
      ticket := sttBytes j.pkt.ticket (f.off.toNat / 2) (f.w.toNat / 2) (th.reg f.g.toNat).toNat } }))))

/-- The width LDNV and STNV take from B (R136). -/
def vWidth (b : Word) : Nat := min (b.toNat % 32) 16

/-- LDNV. D = the window nibbles at A[15:0], width B[4:0] (R136). -/
def execILdnv (t : Tid) (f : FmtA) (s : State) : Host.Outcome State Fault Refusal :=
  .next (issue s t (encA 0x17 f) .packetOnly 1 (decide (f.x = 0)) (fun s =>
    s.updThread t (fun th => th.setReg f.d.toNat (BitVec.ofNat 64
      (winRead th.pktData ((th.reg f.a.toNat).toNat % 65536) (vWidth (th.reg f.b.toNat)))))))

/-- STNV. The low nibbles of D are written at A[15:0], width B[4:0] (R136). -/
def execIStnv (t : Tid) (f : FmtA) (s : State) : Host.Outcome State Fault Refusal :=
  .next (issue s t (encA 0x18 f) .packetOnly 1 (decide (f.x = 0)) (fun s =>
    s.updThread t (fun th => th.setData (winWrite th.pktData ((th.reg f.a.toNat).toNat % 65536)
      (vWidth (th.reg f.b.toNat)) (th.reg f.d.toNat).toNat))))

/-- KPUTG. Appends the low imm[4:0] nibbles of A (R140). -/
def execIKputg (t : Tid) (f : FmtI) (s : State) : Host.Outcome State Fault Refusal :=
  .next (issue s t (encI 0x2C f) .any 1
    (decide (1 ≤ f.imm.toNat ∧ f.imm.toNat ≤ 16 ∧ f.d = 0 ∧ f.p = 0)) (fun s =>
      s.updThread t (fun th => keyAppend th (natNibs f.imm.toNat (th.reg f.a.toNat).toNat))))

/-- KSEEK. KPOS = imm[7:0]; imm[8] clears nibbles KPOS to 159 (R140). -/
def execIKseek (t : Tid) (f : FmtI) (s : State) : Host.Outcome State Fault Refusal :=
  .next (issue s t (encI 0x2D f) .any 1
    (decide (f.imm.toNat % 256 ≤ 160 ∧ f.imm.toNat < 512 ∧ f.d = 0 ∧ f.a = 0 ∧ f.p = 0)) (fun s =>
      s.updThread t (fun th => { th with
        kpos := f.imm.toNat % 256
        key := if f.imm.toNat / 256 = 1 then
            BitVec.ofNat 640 (th.key.toNat % 2 ^ (4 * (f.imm.toNat % 256)))
          else th.key })))

/-- Bytes of an LDL or STL (R144). -/
def memSize (imm : BitVec 12) : Nat := 2 ^ (imm.toNat / 1024)

/-- Local-memory address of an LDL or STL: A plus the signed imm[9:0], modulo the core's memory (R144). -/
def memAddr (s : State) (t : Tid) (f : FmtI) : Nat :=
  let a := ((s.thread t).reg f.a.toNat).toNat
  (((a : Int) + signed 10 (f.imm.toNat % 1024)) % (if isSteward t then 131072 else 65536)).toNat

/-- A local-memory access: fault 2 when any byte lies outside what the thread may address (R145). -/
def issueMem (s : State) (t : Tid) (op : Nat) (f : FmtI) (body : State → Nat → State) : State :=
  issue s t (encI op f) .any 1 (decide (f.p = 0)) (fun s' =>
    let a := memAddr s t f
    if lmemAllowed t a (memSize f.imm) then body s' a
    else threadFault s t 2 (s.thread t).pc (encI op f) a)

/-- LDL. D = the bytes at the address, little-endian (R144). -/
def execILdl (t : Tid) (f : FmtI) (s : State) : Host.Outcome State Fault Refusal :=
  .next (issueMem s t 0x2E f (fun s a => s.updThread t (fun th => th.setReg f.d.toNat
    (BitVec.ofNat 64 (leNat (lmemBytes s (coreOf t) a (memSize f.imm)))))))

/-- STL. The low bytes of D are written at the address, little-endian (R144). -/
def execIStl (t : Tid) (f : FmtI) (s : State) : Host.Outcome State Fault Refusal :=
  .next (issueMem s t 0x2F f (fun s a => s.setLmem (coreOf t) a
    (leBytes (memSize f.imm) ((s.thread t).reg f.d.toNat).toNat)))

/-- Henig's own ns count: Varton's, less or plus the unstated distance of the two origins (R594). -/
def henigNs (s : State) : Nat := ((s.clk.ns : Int) + max (-100) (min 100 Config.dieSkew)).toNat

/-- Core cycles of a die since it left reset: 1.8 GHz on Henig, 1.6 GHz on Varton (R146, R570). -/
def coreCycles (s : State) (t : Tid) : Nat :=
  if dieOf t = 0 then henigNs s * 9 / 5 else s.clk.ns * 8 / 5

/-- A coat stamp as ICOAT and ECOAT hold it (R96). -/
def stamp (slot gen : Nat) : Nat := slot + 2 * (gen % 2 ^ 31)

/-- The system value that RDSYS selects (R146). -/
def sysValue (s : State) (t : Tid) (n : Nat) : Nat :=
  match n with
  | 0 => ptpTime s
  | 1 => coreCycles s t
  | 2 => match (s.thread t).job with
    | some j => s.clk.ns - j.takenAt
    | none => 0
  | 3 => match t with
    | .packet slice core k => k + core * 2 ^ 8 + slice * 2 ^ 16
    | .steward die core k => k + core * 2 ^ 16 + die * 2 ^ 24 + 2 ^ 25
  | 4 => s.rd F.SY_COAT_STATUS.GENERATION 0 + activeSlot s * 2 ^ 32
  | _ => match (s.thread t).job with
    | some j => stamp j.slot j.gen + flag (decide (j.side = .egress)) * 2 ^ 32
    | none => slotGen s (threadSlot s t) + threadSlot s t * 2 ^ 32

/-- RDSYS. D = the system value that imm selects (R146). -/
def execIRdsys (t : Tid) (f : FmtI) (s : State) : Host.Outcome State Fault Refusal :=
  .next (issue s t (encI 0x30 f) .any 1 (decide (f.imm.toNat ≤ 5 ∧ f.a = 0 ∧ f.p = 0)) (fun s' =>
    s'.updThread t (fun th => th.setReg f.d.toNat (BitVec.ofNat 64 (sysValue s t f.imm.toNat)))))

/-- Legal count of FINS and FDEL (R141). -/
def editLegal (f : FmtI) : Bool := decide (1 ≤ f.imm.toNat ∧ f.imm.toNat ≤ 256 ∧ f.d = 0)

/-- FINS. Inserts imm zero bytes at byte A, or is refused with P = 0 (R141 to R143). -/
def execIFins (t : Tid) (f : FmtI) (s : State) : Host.Outcome State Fault Refusal :=
  .next (issue s t (encI 0x31 f) .packetOnly 4 (editLegal f) (fun s =>
    let th := s.thread t
    let d := th.pktData
    let a := (th.reg f.a.toNat).toNat
    let n := f.imm.toNat
    let start := match th.job with
      | some j => j.startLen
      | none => 0
    if d.length < a ∨ 511 < a ∨ start + 256 < d.length + n then
      s.updThread t (fun th => th.setPred f.p.toNat false)
    else
      let s := s.updThread t (fun th =>
        (th.setData (d.take a ++ List.replicate n 0 ++ d.drop a)).setPred f.p.toNat true)
      mapLayers s t (fun v => if 2 * a ≤ v then v + 2 * n else v)))

/-- FDEL. Deletes imm bytes from byte A, or is refused with P = 0 (R141 to R143). -/
def execIFdel (t : Tid) (f : FmtI) (s : State) : Host.Outcome State Fault Refusal :=
  .next (issue s t (encI 0x32 f) .packetOnly 4 (editLegal f) (fun s =>
    let th := s.thread t
    let d := th.pktData
    let a := (th.reg f.a.toNat).toNat
    let n := f.imm.toNat
    if d.length < a ∨ 511 < a ∨ min d.length 512 < a + n then
      s.updThread t (fun th => th.setPred f.p.toNat false)
    else
      let s := s.updThread t (fun th => (th.setData (d.take a ++ d.drop (a + n))).setPred f.p.toNat true)
      mapLayers s t (fun v =>
        if 2 * a + 2 * n ≤ v then v - 2 * n else if 2 * a ≤ v then 0xFFFF else v)))

/-- A mirror copy for a session: the packet as it stands, MIRROR 1 and MIRROR_SESSION in its ticket (R162). -/
def mirrorCopy (p : Pkt) (session : Nat) : Pkt :=
  Pkt.withLength { p with ticket := tkPut (tkPut p.ticket 3 1 1 1) 24 0 10 session }

/-- MIRR. Makes a mirror copy with P = 1; on an egress packet and at the fifth MIRR makes none, P = 0
(R161 to R163). A shadow copy only sets P (R508). -/
def execIMirr (t : Tid) (f : FmtI) (s : State) : Host.Outcome State Fault Refusal :=
  .next (issue s t (encI 0x33 f) .packetOnly 1 (decide (f.imm.toNat < 1024 ∧ f.d = 0 ∧ f.a = 0)) (fun s =>
    s.updThread t (fun th =>
      match th.job with
      | none => th
      | some j =>
        if j.side = .egress ∨ 4 ≤ j.mirrs then th.setPred f.p.toNat false
        else
          let made := if j.shadow.isSome then [] else [mirrorCopy j.pkt f.imm.toNat]
          (th.updJob (fun j => { j with mirrs := j.mirrs + 1, copies := j.copies ++ made })).setPred
            f.p.toNat true)))

/-- A packet leaves its thread at the end of its program: the thread frees, its replies go (R153, R160),
a protected packet forwarded at egress gives its digest (R389), and the packet is retired (R106). -/
def endProgram (s : State) (t : Tid) (forwarded : Bool) : State :=
  match (s.thread t).job with
  | none => s
  | some j =>
    let s := (leaveChannels s t j.uid).setThread t Thread.init
    let s := if forwarded ∨ j.shadow.isSome then s else s.count 70 (some (sideObj j.side j.obj)) 1 j.pkt.attr
    let s := if forwarded ∧ j.side = .egress ∧ j.shadow.isNone then digestForward s j.pkt.withLength else s
    retireJob s j forwarded

/-- FWD. Ends the program and retires the packet for release (R158). -/
def execIFwd (t : Tid) (f : FmtI) (s : State) : Host.Outcome State Fault Refusal :=
  .next (issue s t (encI 0x34 f) .packetOnly 1 (decide (f.d = 0 ∧ f.a = 0 ∧ f.p = 0 ∧ f.imm = 0))
    (fun s => endProgram s t true))

/-- DROP. Ends the program and retires the packet as a program drop (R159). -/
def execIDrop (t : Tid) (f : FmtI) (s : State) : Host.Outcome State Fault Refusal :=
  .next (issue s t (encI 0x35 f) .packetOnly 1 (decide (f.d = 0 ∧ f.a = 0 ∧ f.p = 0 ∧ f.imm = 0))
    (fun s => endProgram s t false))

/-- CST. Stores B[31:0] at word A of the thread's code memory; the instruction at the CST's address + 1
executes in its old form next (R165 to R168). -/
def execICst (t : Tid) (f : FmtA) (s : State) : Host.Outcome State Fault Refusal :=
  .next (issue s t (encA 0x1A f) .any 2 (decide (f.d = 0 ∧ f.x = 0)) (fun s =>
    let th := s.thread t
    let next := th.pc
    -- A store to the next word leaves its old form to run (R166) and its fetch without a fault (R168; log entry 147).
    let word := codeWord s t next
    let old := if codeKey t (th.reg f.a.toNat).toNat = codeKey t next then (word.1, false) else word
    let s := s.setCode t (th.reg f.a.toNat).toNat ((th.reg f.b.toNat).setWidth 32)
    s.updThread t (fun th => { th with oldNext := some (next, old) })))

end Sys2Proof.Machine
end

