-- ==== Sys2Proof/Machine/HenigChan.lean ====
section
/-! DEFINITION. Channel instructions, their replies from the lookup complex, and the steward system
instructions that need no system address (R147 to R155, R169 to R174, R261). -/

namespace Sys2Proof.Machine

/-- A request: it reserves a reply entry, or holds its thread until one frees (R93). -/
def requestOp (s : State) (t : Tid) (ch : Nat) (kind : ReqKind) : State :=
  let c := s.chan (coreOf t) ch
  if c.room then sendReq s t ch kind
  else
    let s := s.setChan (coreOf t) ch { c with held := c.held ++ [threadNo t] }
    s.updThread t (fun th => { th with blocked := .request ch kind })

/-- A format-C instruction whose channel must have a binding (R148). -/
def issueC (s : State) (t : Tid) (op : Nat) (f : FmtC) (need : Binding) (legal : Bool) (body : State → State) :
    State :=
  issue s t (encC op f) .any 1 (legal && decide (binding s t f.ch.toNat = need)) body

/-- LKUP. Sends a table-sequence request: sequence A[9:0], metadata B, key K (R147). -/
def execILkup (t : Tid) (f : FmtC) (s : State) : Host.Outcome State Fault Refusal :=
  .next (issueC s t 0x48 f .lookup (decide (f.x = 0 ∧ f.d = 0)) (fun s =>
    let th := s.thread t
    requestOp s t f.ch.toNat
      (.lkup ((th.reg f.a.toNat).toNat % 1024) (th.reg f.b.toNat) (keyNibs th) (threadSlot s t))))

/-- ASRCH. Sends an associative search: profile A[7:0], key K (R147). -/
def execIAsrch (t : Tid) (f : FmtC) (s : State) : Host.Outcome State Fault Refusal :=
  .next (issueC s t 0x49 f .lookup (decide (f.b = 0 ∧ f.x = 0 ∧ f.d = 0)) (fun s =>
    let th := s.thread t
    requestOp s t f.ch.toNat (.asrch ((th.reg f.a.toNat).toNat % 256) (keyNibs th) (threadSlot s t))))

/-- PMAT. Sends a pattern request: set A[7:0], start byte B[10:0]; the packet as it stands (R147, R195). -/
def execIPmat (t : Tid) (f : FmtC) (s : State) : Host.Outcome State Fault Refusal :=
  .next (issueC s t 0x4A f .pattern (decide (f.x = 0 ∧ f.d = 0)) (fun s =>
    let th := s.thread t
    requestOp s t f.ch.toNat
      (.pmat ((th.reg f.a.toNat).toNat % 256) ((th.reg f.b.toNat).toNat % 2048) th.pktData
        (threadSlot s t) false)))

/-- MTR. Sends a meter charge: meter A[19:0], bytes B[15:0], colour-aware x[0], input colour x[2:1] (R147). -/
def execIMtr (t : Tid) (f : FmtC) (s : State) : Host.Outcome State Fault Refusal :=
  .next (issueC s t 0x4B f .meters (decide (f.x.toNat < 8 ∧ f.d = 0)) (fun s =>
    let th := s.thread t
    requestOp s t f.ch.toNat
      (.mtr ((th.reg f.a.toNat).toNat % 2 ^ 20) ((th.reg f.b.toNat).toNat % 65536)
        (bitAt f.x.toNat 0) (f.x.toNat / 2 % 4) 0 false)))

/-- CNTA. Program counter A[23:0] gains one packet and B[31:0] bytes; a shadow copy's is discarded (R147,
R508). -/
def execICnta (t : Tid) (f : FmtC) (s : State) : Host.Outcome State Fault Refusal :=
  .next (issueC s t 0x4C f .counters (decide (f.x = 0 ∧ f.d = 0)) (fun s =>
    let th := s.thread t
    let n := (th.reg f.a.toNat).toNat % 2 ^ 24
    if (match th.job with
        | some j => j.shadow.isSome
        | none => false) then s
    else { s with cnt := { s.cnt with
        progPackets := Sparse.upd 0 s.cnt.progPackets n (satAdd 64 · 1)
        progBytes := Sparse.upd 0 s.cnt.progBytes n (satAdd 64 · ((th.reg f.b.toNat).toNat % 2 ^ 32)) } }))

/-- Put a learn event on the learn queue, or count a learn overflow (R261); a follower sends it to its lead
(R378). -/
def learnEvent (s : State) (ev : LearnEv) (attr : Attr) : State :=
  if s.on F.LK_LEARN_CTRL.EN 0 && tnFollower s then sendTwin s (.learn ev)
  else if s.on F.LK_LEARN_CTRL.EN 0 && decide (s.lk.learnQ.length < 4096) then
    { s with lk := { s.lk with learnQ := s.lk.learnQ ++ [ev] } }
  else s.count 197 none 1 attr

/-- LEARN. Places a learn event: table A[11:0], key K, data B, the packet's realm (R147, R261). -/
def execILearn (t : Tid) (f : FmtC) (s : State) : Host.Outcome State Fault Refusal :=
  .next (issueC s t 0x4D f .lookup (decide (f.x = 0 ∧ f.d = 0)) (fun s =>
    let th := s.thread t
    -- An overflow is tied to a table, whose REALM its banks take (R561; log entry 151).
    let tb := (th.reg f.a.toNat).toNat % 4096
    if (match th.job with
        | some j => j.shadow.isSome
        | none => false) then s
    else learnEvent s ⟨tb, fitKey s tb (keyNibs th), th.kpos, th.reg f.b.toNat, Tk.realm th.ticket⟩
      { realm := some (tblRealm s tb) }))

/-- SEND. Pushes A and B onto a channel bound to the issuing thread, or blocks while it is full (R93, R147). -/
def execISend (t : Tid) (f : FmtC) (s : State) : Host.Outcome State Fault Refusal :=
  .next (issueC s t 0x4E f (.thread (threadNo t)) (decide (f.x = 0 ∧ f.d = 0)) (fun s =>
    let th := s.thread t
    let ch := f.ch.toNat
    let c := s.chan (coreOf t) ch
    let w0 := th.reg f.a.toNat
    let w1 := th.reg f.b.toNat
    if c.room then pushEntry s t ch ⟨w0, w1, 0⟩
    else (s.setChan (coreOf t) ch { c with held := c.held ++ [threadNo t] }).updThread t
      (fun th => { th with blocked := .send ch w0 w1 })))

/-- Take the oldest entry of a channel into D and g(d + 1); threads held on the channel go on (R93, R94). -/
def popEntry (s : State) (t : Tid) (ch d : Nat) (e : ChanEntry) (rest : List ChanEntry) : State :=
  let c := s.chan (coreOf t) ch
  let s := s.setChan (coreOf t) ch { c with entries := rest }
  let s := s.updThread t (fun th => (th.setReg d e.w0).setReg (d + 1) e.w1)
  serveHeld s t ch 8

/-- RECV. Pops one entry into D and g(d + 1), blocking while the channel is empty (R94, R147). -/
def execIRecv (t : Tid) (f : FmtC) (s : State) : Host.Outcome State Fault Refusal :=
  .next (issue s t (encC 0x4F f) .any 1 (decide (f.a = 0 ∧ f.b = 0 ∧ f.x = 0 ∧ f.d.toNat ≤ 30)) (fun s =>
    let ch := f.ch.toNat
    let c := s.chan (coreOf t) ch
    match c.entries with
    | e :: es => popEntry s t ch f.d.toNat e es
    | [] => (s.setChan (coreOf t) ch { c with readers := c.readers ++ [threadNo t] }).updThread t
        (fun th => { th with blocked := .recv ch f.d.toNat })))

/-- RECVP. Pops one entry if there is one; P = x[2:0] tells (R147, R155). -/
def execIRecvp (t : Tid) (f : FmtC) (s : State) : Host.Outcome State Fault Refusal :=
  .next (issue s t (encC 0x50 f) .any 1
    (decide (f.a = 0 ∧ f.b = 0 ∧ f.x.toNat < 8 ∧ f.d.toNat ≤ 30)) (fun s =>
      let ch := f.ch.toNat
      match (s.chan (coreOf t) ch).entries with
      | e :: es => (popEntry s t ch f.d.toNat e es).updThread t (fun th => th.setPred (f.x.toNat % 8) true)
      | [] => s.updThread t (fun th => th.setPred (f.x.toNat % 8) false)))

/-! ### Replies -/

/-- The outstanding request of a number. -/
def findReq (s : State) (id : Nat) : Option Req := s.hn.reqs.find? (fun r => r.id == id)

/-- LKUP_REPLY. The sequence runs and its reply is delivered (R202). -/
def execLkupReply (req : Nat) (s : State) : Host.Outcome State Fault Refusal :=
  match findReq s req with
  | some r =>
    match r.kind with
    | .lkup seq m key slot =>
      let a := lkupAnswer s r seq m key slot
      .next (deliverReply a.1 r a.2.1 a.2.2)
    | _ => .next s
  | none => .next s

/-- ASRCH_REPLY. The banks answer and the reply is delivered (R216). -/
def execAsrchReply (req : Nat) (s : State) : Host.Outcome State Fault Refusal :=
  match findReq s req with
  | some r =>
    match r.kind with
    | .asrch p key slot =>
      let a := asrchAnswer s r p key slot
      .next (deliverReply a.1 r a.2.1 a.2.2)
    | _ => .next s
  | none => .next s

/-- PMAT_REPLY. The pattern engine scans and the reply is delivered (R197). -/
def execPmatReply (req : Nat) (s : State) : Host.Outcome State Fault Refusal :=
  match findReq s req with
  | some r =>
    match r.kind with
    | .pmat set start d slot past =>
      let a := pmatAnswer s r set start d slot past
      .next (deliverReply a.1 r a.2.1 a.2.2)
    | _ => .next s
  | none => .next s

/-! ### Steward system instructions -/

/-- WEVT. Takes the masked pending bits, or blocks until one is set; the thread takes the active coat slot
(R118, R169). -/
def execIWevt (t : Tid) (f : FmtA) (s : State) : Host.Outcome State Fault Refusal :=
  .next (issue s t (encA 0x60 f) .stewardOnly 1 (decide (f.b = 0 ∧ f.x = 0)) (fun s =>
    s.updThread t (fun th => wakeEvents
      { th with held := some (activeSlot s), blocked := .wevt f.d.toNat (th.reg f.a.toNat) })))

/-- The steward thread that a word names (R170): die, core, thread. -/
def namedThread (v : Nat) : Nat × Nat × Nat := (bitsOf v 8 1, bitsOf v 4 2, bitsOf v 0 4)

/-- SEVT. Asserts line 63 of the steward thread that A names (R169). -/
def execISevt (t : Tid) (f : FmtA) (s : State) : Host.Outcome State Fault Refusal :=
  .next (issue s t (encA 0x61 f) .stewardOnly 1 (decide (f.d = 0 ∧ f.b = 0 ∧ f.x = 0)) (fun s =>
    let n := namedThread ((s.thread t).reg f.a.toNat).toNat
    assertLine s n.1 n.2.1 n.2.2 63))

/-- TSTART. Restarts the stopped steward thread that A names at word B, with P = 1; otherwise P = 0 (R169,
R171). -/
def execITstart (t : Tid) (f : FmtA) (s : State) : Host.Outcome State Fault Refusal :=
  .next (issue s t (encA 0x62 f) .stewardOnly 1 (decide (f.d = 0 ∧ f.x.toNat < 8)) (fun s =>
    let th := s.thread t
    let n := namedThread (th.reg f.a.toNat).toNat
    let target : Tid := .steward n.1 n.2.1 n.2.2
    let p := f.x.toNat % 8
    if (s.thread target).run = .stopped then
      let s := s.updThread target (fun x => { x with
        run := .running
        pc := (th.reg f.b.toNat).toNat % 65536
        blocked := .none
        oldNext := none
        held := some (activeSlot s) })
      s.updThread t (fun th => th.setPred p true)
    else s.updThread t (fun th => th.setPred p false)))

/-- RAISE. Raises interrupt source A[9:0] when it is 512–1023 (R169). -/
def execIRaise (t : Tid) (f : FmtA) (s : State) : Host.Outcome State Fault Refusal :=
  .next (issue s t (encA 0x63 f) .stewardOnly 1 (decide (f.d = 0 ∧ f.b = 0 ∧ f.x = 0)) (fun s =>
    let n := ((s.thread t).reg f.a.toNat).toNat % 1024
    if 512 ≤ n then s.raise n else s))

/-- XRD. Requests 16 bytes at system address A, low 4 bits taken as 0, into a channel bound to the issuing
thread (R148, R169). -/
def execIXrd (t : Tid) (f : FmtC) (s : State) : Host.Outcome State Fault Refusal :=
  .next (issue s t (encC 0x64 f) .stewardOnly 1
    (decide (f.d = 0 ∧ f.b = 0 ∧ f.x = 0 ∧ binding s t f.ch.toNat = .thread (threadNo t))) (fun s =>
      let a := ((s.thread t).reg f.a.toNat).toNat
      requestOp s t f.ch.toNat (.xrd (a / 16 * 16))))

/-- EVENT_LINE_ASSERT. A steward thread's event line asserts (R90). -/
def execEventLineAssert (die core thread line : Nat) (s : State) : Host.Outcome State Fault Refusal :=
  .next (assertLine s die core thread line)

end Sys2Proof.Machine
end

