-- ==== Sys2Proof/Machine/Meters.lean ====
section
/-! DEFINITION. Meters: descriptors, refill, colours, the packet's own metering and MTR (R304 to R311). -/

namespace Sys2Proof.Machine

/-! ### Descriptors (R310) -/

/-- The reset meter: type OFF, every field 0, buckets empty. -/
def Meter.init : Meter := ⟨0, 0, 0, 0, 0, 0, 0⟩

def meterAt (s : State) (m : Nat) : Meter := Sparse.get Meter.init s.q.meters m

def State.setMeter (s : State) (m : Nat) (v : Meter) : State :=
  { s with q := { s.q with meters := Sparse.set Meter.init s.q.meters m v } }

def Meter.type (m : Meter) : Nat := bitsOf m.d0.toNat 0 3
def Meter.redDrop (m : Meter) : Bool := bitAt m.d0.toNat 3
def Meter.yellowDrop (m : Meter) : Bool := bitAt m.d0.toNat 4
def Meter.cir (m : Meter) : Nat := bitsOf m.d0.toNat 8 27
def Meter.cbs (m : Meter) : Nat := bitsOf m.d0.toNat 35 24
def Meter.eir (m : Meter) : Nat := bitsOf m.d1.toNat 0 27
def Meter.ebs (m : Meter) : Nat := bitsOf m.d1.toNat 27 24

/-- A descriptor as committed for meter `index` (R310): words 0 and 1. -/
def clampMeter (index d0 d1 : Nat) : Nat × Nat :=
  let ty := bitsOf d0 0 3
  let ty := if 4 < ty ∨ (ty = 4 ∧ 8192 ≤ index) then 0 else ty
  let cir := clampRange 1 100000000 (bitsOf d0 8 27)
  let eir := clampRange (if ty = 2 then cir else 0) 100000000 (bitsOf d1 0 27)
  (ty + bitsOf d0 3 2 * 8 + cir * 2 ^ 8 + bitsOf d0 35 24 * 2 ^ 35, eir + bitsOf d1 27 24 * 2 ^ 27)

/-! ### Refill and charge (R306) -/

/-- A bucket after `dt` ns at `rate` units of 1,000 bytes per second: bytes before the cap, remainder. -/
def refillBucket (have_ rem rate dt : Nat) : Nat × Nat :=
  let acc := rem + rate * dt
  (have_ + acc / 1000000, acc % 1000000)

/-- A bucket cut to its size; a full one keeps no remainder. -/
def capBucket (size : Nat) (b : Nat × Nat) : Nat × Nat := if size ≤ b.1 then (size, 0) else b

/-- A meter refilled to time `now`. -/
def Meter.refill (m : Meter) (now : Nat) : Meter :=
  let dt := now - m.last
  let c := refillBucket m.c m.remC m.cir dt
  match m.type with
  | 1 =>
    let e := capBucket m.ebs (m.e + (c.1 - m.cbs), c.2)
    { m with c := min c.1 m.cbs, e := e.1, remC := if m.cbs ≤ c.1 ∧ m.ebs ≤ e.1 then 0 else c.2, last := now }
  | 2 | 3 =>
    let c := capBucket m.cbs c
    let e := capBucket m.ebs (refillBucket m.e m.remE m.eir dt)
    { m with c := c.1, remC := c.2, e := e.1, remE := e.2, last := now }
  | 4 =>
    let c := capBucket m.cbs c
    { m with c := c.1, remC := c.2, last := now }
  | _ => { m with last := now }

/-- C, then E, for a packet of `b` bytes; `blind` when the input colour is green (R306). -/
def markTwo (m : Meter) (b : Nat) (blind : Bool) : Meter × Nat :=
  if blind && decide (b ≤ m.c) then ({ m with c := m.c - b }, 0)
  else if b ≤ m.e then ({ m with e := m.e - b }, 1)
  else (m, 2)

/-- TRTCM, whose second bucket is P (R306). -/
def markTrtcm (m : Meter) (b : Nat) (blind : Bool) : Meter × Nat :=
  if m.e < b then (m, 2)
  else if !blind || decide (m.c < b) then ({ m with e := m.e - b }, 1)
  else ({ m with c := m.c - b, e := m.e - b }, 0)

/-- Colour a packet of `b` bytes with input colour `inp` at a refilled meter; a STRICT meter answers red where
it does not pass (R306, R308). -/
def Meter.mark (m : Meter) (b inp : Nat) : Meter × Nat :=
  match m.type with
  | 0 => (m, inp)
  | 2 => if inp = 2 then (m, 2) else markTrtcm m b (inp == 0)
  | 4 => if b ≤ m.c then ({ m with c := m.c - b }, 0) else (m, 2)
  | _ => if inp = 2 then (m, 2) else markTwo m b (inp == 0)

/-- The input colour (R305): green unless colour-aware, and for encoding 3. -/
def inputColour (aware : Bool) (c : Nat) : Nat := if aware && c != 3 then c else 0

/-- Charge meter `n` and count the charge (event 1,225). -/
def chargeMeter (s : State) (n b inp : Nat) (attr : Attr) : State × Nat :=
  let m := (meterAt s n).refill s.clk.ns
  let r := m.mark b inp
  let s := s.setMeter n r.1
  (if m.type = 0 then s else s.count 1225 (some n) 1 attr, r.2)

/-- Metering of a packet at Varton ingress: its colour, or the discard (R305, R307, R308). -/
def meterPacket (s : State) (p : Pkt) : State × Option Pkt :=
  if !Tk.useMeter p.ticket then (s, some p)
  else
    let n := Tk.meter p.ticket
    let m := meterAt s n
    let inp := inputColour (Tk.colourAware p.ticket) (Tk.colour p.ticket)
    let r := chargeMeter s n p.data.length inp p.attr
    let p' := { p with ticket := tkPut p.ticket 2 3 2 r.2 }
    if m.type = 0 then (r.1, some p')
    else if m.type = 4 then
      if r.2 = 0 then (r.1, some p') else (r.1.count 450 (some n) 1 p.attr, none)
    else if (r.2 = 2 ∧ m.redDrop = true) ∨ (r.2 = 1 ∧ m.yellowDrop = true) then
      (r.1.count 449 (some (n * 3 + r.2)) 1 p.attr, none)
    else (r.1, some p')

/-! ### MTR (R309, R151, R152) -/

/-- An MTR's answer: LIMIT beyond the packet's four, REFUSED for a STRICT meter, else the colour. -/
def mtrAnswer (s : State) (r : Req) (n b : Nat) (aware : Bool) (c : Nat) (past : Bool) : State × Word :=
  let ops := if r.uid = 0 then 0 else opsUsed s r.uid
  if past then (s, replyWord false false 0 1 0 0 ops 0)
  else if (meterAt s n).type = 4 then (s, replyWord false false 0 4 0 0 ops 0)
  else
    let a := chargeMeter s n b (inputColour aware c) r.attr
    (a.1, replyWord false false a.2 0 0 0 ops 0)

/-- The shadow copy, or the packet that a copy runs beside, among a thread's jobs (R508). -/
def shadowOf (s : State) (r : Req) : Option Nat × Option Nat :=
  match (s.thread r.tid).job with
  | some j => if j.uid = r.uid then (j.shadow, j.twinShadow) else (none, none)
  | none => (none, none)

/-- MTR_REPLY. The meter is charged and the colour delivered; a shadow copy's k-th MTR waits for, and takes,
the real packet's k-th reply (R309, R508). -/
def execMtrReply (req : Nat) (s : State) : Host.Outcome State Fault Refusal :=
  match findReq s req with
  | some r =>
    match r.kind with
    | .mtr n b aware c k past =>
      match shadowOf s r with
      | (some id, _) =>
        match (Sparse.get [] s.hn.shadowMtr id)[k]? with
        | some w => .next (deliverReply s r w 0)
        | none => .next s
      | (none, some id) =>
        let a := mtrAnswer s r n b aware c past
        .next (deliverReply { a.1 with hn := { a.1.hn with
          shadowMtr := Sparse.upd [] a.1.hn.shadowMtr id (· ++ [a.2]) } } r a.2 0)
      | (none, none) =>
        let a := mtrAnswer s r n b aware c past
        .next (deliverReply a.1 r a.2 0)
    | _ => .next s
  | none => .next s

/-! ### The meter windows (R310) -/

/-- READ's copy of a descriptor into a window's DATA0 and DATA1. -/
def showMeter (s : State) (w n : Nat) : State :=
  let m := meterAt s n
  (s.wr F.VT_MTR_WIN.DATA0 w m.d0.toNat).wr F.VT_MTR_WIN.DATA1 w m.d1.toNat

/-- WRITE, and with `fill` WRITE_FILL, of the window's descriptor to meter `n`. -/
def commitMeter (s : State) (w n : Nat) (fill : Bool) : State :=
  let d := clampMeter n (s.rd F.VT_MTR_WIN.DATA0 w) (s.rd F.VT_MTR_WIN.DATA1 w)
  let old := (meterAt s n).refill s.clk.ns
  let m := { old with d0 := BitVec.ofNat 64 d.1, d1 := BitVec.ofNat 64 d.2, remC := 0, remE := 0 }
  let m := if fill then { m with c := m.cbs, e := m.ebs }
    else { m with c := min m.c m.cbs, e := min m.e m.ebs }
  showMeter (s.setMeter n m) w n

end Sys2Proof.Machine
end

