-- ==== Sys2Proof/Machine/Varton.lean ====
section
/-! DEFINITION. Varton ingress, the schedulers' decisions, the frame age sweep, replication's retries, and
powering a destination down (R291, R292, R302, R321 to R323, R330 to R332, R362, R369). -/

namespace Sys2Proof.Machine

/-! ### Varton ingress (R302) -/

/-- A reserved local destination (R22, R23); a group destination names none (R359). -/
def reservedDest (s : State) (dest : Nat) : Bool :=
  let l := dest % 1024
  !isGroup s dest && decide ((162 ≤ l ∧ l ≤ 191) ∨ 256 ≤ l)

/-- Discard a packet, with the share of the buffer it may hold. -/
def dropWith (s : State) (handle : Option Nat) : State :=
  match handle with
  | some h => releaseBuf s h
  | none => s

/-- Queue admission of a packet (R302 step 4): the state, and whether it is admitted. -/
def queueAdmission (s : State) (p : Pkt) : State × Bool :=
  let tc := Tk.tc p.ticket
  let n := p.data.length
  let a := { s.q.adm with arrived := modifyAt (· + n) s.q.adm.arrived tc }
  let s := { s with q := { s.q with adm := a } }
  let q := 8 * Tk.dest p.ticket + tc
  match qAdmit a tc n with
  | none => (s.count 452 (some (tc * 160 + Tk.source p.ticket)) 1 p.attr, false)
  | some a' =>
    if fits s (.voq q) p then ({ s with q := { s.q with adm := a' } }, true)
    else (s.count 451 (some q) 1 p.attr, false)

/-- The copy of a generated packet for the twin port (R376): it shares the buffer, keeps TC, and meets the threshold
check (R312). -/
def twinCopy (s : State) (p : Pkt) (handle : Nat) : State :=
  let p := { p with ticket := tkPut p.ticket 0 0 16 (ownDest s 161) }
  let q := 8 * ownDest s 161 + Tk.tc p.ticket
  if fits s (.voq q) p then enqueueVoq (shareBuf s handle) p handle else s.count 451 (some q) 1 p.attr

/-- Steps 4 and 5 of R302 for a packet that has its buffer, then numbering (R376) and mirroring (R363). -/
def admitTail (s : State) (p : Pkt) (handle : Nat) (fromTwin : Bool) : State :=
  let a := queueAdmission s p
  if !a.2 then releaseBuf a.1 handle
  else
    let g := generate a.1 p fromTwin
    let s := enqueueVoq g.1 g.2.1 handle
    let s := if g.2.2 then twinCopy s g.2.1 handle else s
    mirrorIngress s g.2.1 handle

/-- A packet meets the steps of R302. `port` is its requester port; a packet from the twin keeps the buffer
`held` and skips step 3 (R369). -/
def ingressSteps (s : State) (port : Nat) (p : Pkt) (held : Option Nat) : State :=
  if reservedDest s (Tk.dest p.ticket) then
    dropWith (s.count 1236 (some (Tk.source p.ticket)) 1 p.attr) held
  else if held.isNone && s.rd F.LT_POWER.STATE 0 == 2 && !bitAt (s.rd F.LT_HOLDOVER.TC_MASK 0) (Tk.tc p.ticket) then
    s.count 1153 (some (Tk.tc p.ticket)) 1 p.attr
  else if held.isNone && tnFollower s && isGenerated s p then s.count 705 none 1 p.attr
  else
    match meterPacket s p with
    | (s, none) => dropWith s held
    | (s, some p) =>
      match held with
      | some h => admitTail s p h true
      | none =>
        let b := getBuffer s ⟨port, Tk.owner p.ticket, p.data.length, Tk.realm p.ticket, Tk.tc p.ticket⟩
        match b.2 with
        | none => b.1
        | some h => admitTail (storeBuf b.1 h p) p h false

/-- A packet at Varton ingress: a MIRR copy is first a candidate of its session (R363, R364). -/
def vartonIngress (s : State) (port : Nat) (p : Pkt) : State :=
  if Tk.mirror p.ticket then
    let m := Tk.session p.ticket
    let c := mirrorCount s m
    if c.2 then ingressSteps c.1 port (sessionCopy c.1 m p) none else c.1
  else ingressSteps s port p none

/-- VARTON_INGRESS. The oldest packet on the die link, or one a Varton steward core has built, meets the steps
of R302. -/
def execVartonIngress (src : IngressFrom) (s : State) : Host.Outcome State Fault Refusal :=
  match src with
  | .dieLink port =>
    match s.hn.dieLink with
    | [] => .next s
    | p :: ps =>
      if port < 16 then .next (vartonIngress { s with hn := { s.hn with dieLink := ps } } port p) else .next s
  | .steward ticket data =>
    if s.clk.diesOn then .next (vartonIngress s 24 (Pkt.withLength ⟨ticket, data⟩)) else .next s

/-! ### The schedulers (R321 to R323) -/

/-- The queue at the end of a path. -/
def pathQueue (path : List Nat) : Option QueueId := path.getLast?.bind (fun c => elemQueue (elemOf c))

/-- A chosen packet is charged and read from its buffer; one that meets an uncorrectable block is a memory-error
discard (R322, R456). -/
def takeChosen (s : State) (top : Nat) (path : List Nat) (x : Queued) : State × Bool :=
  let r := readBuf (chargePath s top path x) x.handle x.pkt
  if r.2 then r
  else (releaseBuf (r.1.count 897 ((pathQueue path).map queueObj) 1 x.pkt.attr) x.handle, false)

/-- The VOQ scheduler sends a packet (R319, R345, R357, R360). -/
def sendVoq (s : State) (path : List Nat) (x : Queued) : State :=
  let dest := Tk.dest x.pkt.ticket
  let t := takeChosen s Elem.root.code path x
  let s :=
    if !t.2 then t.1
    else
      let s := { t.1 with q := { t.1.q with adm := { t.1.q.adm with sent := t.1.q.adm.sent + x.len } } }
      if isGroup s dest then sendGroup s x
      else leaveBuf (sendPacket s (dest / 1024) dest x.pkt) x.handle
  if Tk.tc x.pkt.ticket = 7 then askExpress (s.setReq dest .idle) dest else s

/-- A port scheduler sends a packet to Henig egress or on the twin link (R301). -/
def sendPort (s : State) (d : Nat) (path : List Nat) (x : Queued) : State :=
  let t := takeChosen s (Elem.port d).code path x
  let s := if !t.2 then t.1
    else if d = 161 then
      leaveBuf (sendPacket t.1 (t.1.rd F.TN_STATUS.TWIN_ID 0) (Tk.dest x.pkt.ticket) x.pkt) x.handle
    else leaveBuf { t.1 with hn := { t.1.hn with egressWait := t.1.hn.egressWait ++ [(d, x.pkt)] } } x.handle
  flowCheck s d

/-- A port scheduler's choice (R321), for the sinks that take packets from it. -/
def choosePort (s : State) (d : Nat) : State × Pick :=
  decideSend accepts holdsGrant (Elem.port d).code (queuedCount s.q.eqs + 1) s

/-- Henig egress accepts a packet for a destination while none for it waits on the die link (R301; DESIGN CHOICE, log
entry 166). -/
def henigAccepts (s : State) (d : Nat) : Bool := !s.hn.egressWait.any (fun e => e.1 == d)

/-- The twin link takes a packet's cells: it is up, and has a lane (R301, R367). -/
def twinAccepts (s : State) : Bool := tnLink s && !(patternOf s (s.rd F.TN_STATUS.TWIN_ID 0)).isEmpty

/-- SCHEDULER_DECISION. A VOQ or port scheduler chooses a packet and sends it (R321 to R323). Port schedulers 160
and 192 to 255 choose when their sinks take a packet: FRESCO_RECORD, PUNT_DELIVERY. -/
def execSchedulerDecision (target : SchedAt) (s : State) : Host.Outcome State Fault Refusal :=
  match target with
  | .voq =>
    let r := decideSend accepts holdsGrant Elem.root.code (queuedCount s.q.voqs + 1) s
    match r.2 with
    | .head path x => .next (sendVoq r.1 path x)
    | _ => .next r.1
  | .port d =>
    if (d < 160 ∧ henigAccepts s d = true) ∨ (d = 161 ∧ twinAccepts s = true) then
      let r := choosePort s d
      match r.2 with
      | .head path x => .next (sendPort r.1 d path x)
      | _ => .next (flowCheck r.1 d)
    else .next s

/-- The sweep examines a queue's head; a head that has gone unexamined for more than AGE_SWEEP_US makes a background
overrun (R292, R517). -/
def sweepHead (s : State) (queue : QueueId) : State :=
  let k := queueObj queue
  match Sparse.get none s.q.ageSeen k with
  | none => s
  | some t =>
    let s := if t + s.rd F.VT_BUF_CTRL.AGE_SWEEP_US 0 * 1000 < s.clk.ns then overrun s 3 else s
    { s with q := { s.q with ageSeen := Sparse.set none s.q.ageSeen k (some s.clk.ns) } }

/-- FRAME_AGE_SWEEP. The sweep discards a queue's heads while they are too old (R292). -/
def execFrameAgeSweep (queue : QueueId) (s : State) : Host.Outcome State Fault Refusal :=
  let s := discardAged queue ((queueList s queue).length + 1) (sweepHead s queue)
  match queue with
  | .voq _ => .next s
  | .eq e => match chainPort s (.eq e) with
    | some d => .next (flowCheck s d)
    | none => .next s

/-! ### Retries (R362) -/

/-- Serve what can be served of one residue entry; `earlier` are the entries before it that still owe. -/
def serveResidue (s : State) (tx : Bool) (earlier : List Residue) (r : Residue) : State × List Nat :=
  let open_ (t : Nat) : Bool :=
    !residueFor earlier r.group t && (if tx then reaches s t else entryOpen s t r.q.pkt)
  let now := r.owed.filter open_
  let s := now.foldl (fun s t =>
    if tx then
      let b := readBuf s r.q.handle r.q.pkt
      if b.2 then leaveBuf (shareBuf (sendPacket b.1 t (t * 1024 + r.group) r.q.pkt) r.q.handle) r.q.handle
      else b.1.count 897 (some (8 * Tk.dest r.q.pkt.ticket + Tk.tc r.q.pkt.ticket)) 1 r.q.pkt.attr
    else enqueueEntry s t r.q.pkt r.q.handle r.q.src) s
  (s, r.owed.filter (fun t => !now.contains t))

/-- Visit a retry list in order of creation; what is RETRY_US old is dropped. -/
def visitList (tx : Bool) (s : State) (done : List Residue) : List Residue → State × List Residue
  | [] => (s, done)
  | r :: rs =>
    if r.made + s.rd F.FB_REPL_CTRL.RETRY_US 0 * 1000 ≤ s.clk.ns then
      visitList tx (releaseBuf (s.count 584 (some r.group) r.owed.length r.q.pkt.attr) r.q.handle) done rs
    else
      let a := serveResidue s tx done r
      if a.2.isEmpty then visitList tx (releaseBuf a.1 r.q.handle) done rs
      else visitList tx a.1 (done ++ [{ r with owed := a.2 }]) rs

/-- RETRY_VISIT. Both retry lists are visited (R362). -/
def execRetryVisit (s : State) : Host.Outcome State Fault Refusal :=
  let a := visitList true s [] s.fb.retryTx
  let s := { a.1 with fb := { a.1.fb with retryTx := a.2 } }
  let b := visitList false s [] s.fb.retryRx
  .next { b.1 with fb := { b.1.fb with retryRx := b.2 } }

/-! ### Powering a destination down (R330 to R332) -/

/-- Discard what is in reassembly or held for destination `d` (R330). -/
def drainArrivals (s : State) (d : Nat) : State :=
  let s := s.fb.reasm.foldl (fun s e =>
    match e.2 with
    | .part p =>
      if !isGroup s p.dest && p.dest % 1024 == d then
        releaseBuf (State.count { s with fb := { s.fb with reasm := Sparse.set .idle s.fb.reasm e.1 (.skip false false) } }
          454 (some d) 1 { tc := some p.tc }) p.handle
      else s
    | _ => s) s
  s.tn.streams.foldl (fun s e =>
    let t := streamAt s e.1
    let mine (h : Held) : Bool := !isGroup s (Tk.dest h.q.pkt.ticket) && Tk.dest h.q.pkt.ticket % 1024 == d
    (t.held.filter mine).foldl (fun s h => releaseBuf (s.count 454 (some d) 1 h.q.pkt.attr) h.q.handle)
      (s.setStream e.1 { t with held := t.held.filter (fun h => !mine h) })) s

/-- A local destination starts draining (R330, R358). -/
def powerDownDest (s : State) (d : Nat) : State :=
  if powerOf s d ≠ 0 then s
  else
    let s := s.wr F.VT_PORT.POWER d 1
    let due := s.clk.ns + s.rd F.VT_DRAIN_CTRL.DRAIN_US 0 * 1000
    let s := { s with q := { s.q with drainEnd := Sparse.set none s.q.drainEnd d (some due) } }
    let s := drainArrivals s d
    (arbAt s d).waiting.foldl (fun s w => grantTo s d w.1 w.2) s

/-- Every element beneath destination `d` starts afresh (R332). -/
def freshElems (s : State) (d : Nat) : State :=
  { s with q := { s.q with elems := s.q.elems.filter (fun e =>
    !(chainOf s 6 (elemOf e.1)).contains (.port d)) } }

/-- A destination comes back (R332): at once when it is OFF, after its drain when it drains. -/
def powerUpDest (s : State) (d : Nat) : State :=
  match powerOf s d with
  | 2 => freshElems (s.wr F.VT_PORT.POWER d 0) d
  | 1 => { s with q := { s.q with upAfter := Sparse.set false s.q.upAfter d true } }
  | _ => s

/-- Discard every packet queued for destination `d`. -/
def discardQueued (s : State) (d event : Nat) : State :=
  s.q.eqs.foldl (fun s e =>
    if chainPort s (.eq e.1) = some d then
      settleChain (e.2.foldl (fun s x => releaseBuf (s.count event (some d) 1 x.pkt.attr) x.handle)
        (s.setEq e.1 [])) (.eq e.1)
    else s) s

/-- A drain ends (R330): what is left is discarded, POWER becomes OFF. -/
def endDrain (s : State) (d : Nat) : State :=
  let s := discardQueued s d 454
  let s := s.wr F.VT_PORT.POWER d 2
  let up := Sparse.get false s.q.upAfter d
  let s := { s with q := { s.q with
    drainEnd := Sparse.set none s.q.drainEnd d none
    upAfter := Sparse.set false s.q.upAfter d false } }
  let s := flowCheck s d
  if up then powerUpDest s d else s

/-- DESTINATION_POWER_DOWN (R330). -/
def execDestinationPowerDown (d : Nat) (s : State) : Host.Outcome State Fault Refusal :=
  .next (if d < 256 then powerDownDest s d else s)

/-- DRAIN_END. The destination's queues are empty, or DRAIN_US has passed (R330). -/
def execDrainEnd (d : Nat) (s : State) : Host.Outcome State Fault Refusal :=
  if powerOf s d ≠ 1 then .next s
  else
    let due := (Sparse.get none s.q.drainEnd d).getD s.clk.ns
    .next (endDrain (if portDepth s d = 0 then s else reachTime s due) d)

/-- DESTINATION_POWER_UP (R332). -/
def execDestinationPowerUp (d : Nat) (s : State) : Host.Outcome State Fault Refusal :=
  .next (if d < 256 then powerUpDest s d else s)

end Sys2Proof.Machine
end

