-- ==== Sys2Proof/Machine/Cells.lean ====
section
/-! DEFINITION. Cells received: reorder, reassembly, relay, control messages and the lanes' HELLO (R336, R337,
R340, R347, R348, R351 to R358, R369). -/

namespace Sys2Proof.Machine

/-! ### Reassembly (R354) -/

def reasmAt (s : State) (k : Nat) : Reasm := Sparse.get .idle s.fb.reasm k

def State.setReasm (s : State) (k : Nat) (r : Reasm) : State :=
  { s with fb := { s.fb with reasm := Sparse.set .idle s.fb.reasm k r } }

/-- Cells of sending module `src` come over the twin link (R367). -/
def fromTwinLink (s : State) (src : Nat) : Bool := modeEff s == 3 && src != myId s

/-- A packet in reassembly is discarded (R354). -/
def dropPartial (s : State) (k : Nat) (p : Partial) : State :=
  releaseBuf ((s.setReasm k (.skip (isGroup s p.dest) false)).count 582 none 1 { tc := some p.tc }) p.handle

/-- The twin has sent a packet for the twin port (R369). -/
def twinPacket (s : State) (p : Pkt) (handle : Nat) : State :=
  let dest := tkGet p.ticket 64 0 16
  if dest / 1024 ≠ myId s then releaseBuf (s.count 704 none 1 p.attr) handle
  else ingressSteps s 0 { p with ticket := tkPut p.ticket 0 0 16 dest } (some handle)

/-- A complete packet: its ticket, LENGTH from PLEN, then egress (R342, R354, R369, R382). -/
def finishPacket (s : State) (src : Nat) (p : Partial) : State :=
  let n := if p.short then 64 else 128
  let tk : BitVec 1024 := BitVec.ofNat 1024 (leNat (p.bytes.take n))
  let pkt := Pkt.withLength ⟨tk, p.bytes.drop n⟩
  let s := storeBuf s p.handle pkt
  if fromTwinLink s src then twinPacket s pkt p.handle else arriveEgress s ⟨pkt, nowUs s, p.handle, src⟩

/-- The local destination a packet's buffer is charged to (R278): the twin port for the twin's packets, the first
replication entry's for a group. -/
def chargeDest (s : State) (src dest : Nat) : Nat :=
  if fromTwinLink s src then 161
  else if isGroup s dest then s.rd F.FB_REPL.LDEST (s.rd F.FB_GROUP.FIRST (dest % 1024))
  else dest % 1024

/-- A packet begins at its FIRST or ONLY cell: its buffer is requested, unless its destination takes none (R278,
R330, R331, R354). -/
def beginPacket (s : State) (src k : Nat) (c : RxCell) : State :=
  let h := c.cell.hdr
  let tk : BitVec 1024 := BitVec.ofNat 1024 (leNat (c.cell.payload.take (if c.short then 64 else 128)))
  let group := isGroup s (Tk.dest tk)
  let dest := if group then Tk.dest tk else Hd.dest h
  let d := dest % 1024
  let local_ := !fromTwinLink s src && !group
  if local_ && powerOf s d == 2 then s.setReasm k (.skip false false)
  else if local_ && powerOf s d == 1 then
    (s.setReasm k (.skip false false)).count 454 (some d) 1 { tc := some (Hd.tc h) }
  else
    let b := getBuffer s ⟨16 + src % 8, s.rd F.VT_EGR_OWNER.OWNER (chargeDest s src dest), Hd.plen h,
      Tk.realm tk, Tk.tc tk⟩
    match b.2 with
    | none => b.1.setReasm k (.skip group false)
    | some hd => b.1.setReasm k (.part ⟨Hd.tc h, dest, Hd.plen h, c.short, hd, []⟩)

/-- A cell that is discarded at reassembly, or comes while none is expected, is counted when its destination is OFF
(R331). -/
def countOff (s : State) (src : Nat) (c : RxCell) : State :=
  let d := Hd.dest c.cell.hdr % 1024
  if !fromTwinLink s src && powerOf s d == 2 then s.count 455 (some d) 1 { tc := some (Hd.tc c.cell.hdr) } else s

/-- A cell's bytes join its packet; the LAST or ONLY cell completes it (R354). -/
def addCell (s : State) (src k : Nat) (c : RxCell) : State :=
  match reasmAt s k with
  | .part p =>
    let p := { p with bytes := p.bytes ++ slice c.cell.payload 0 (Hd.cbytes c.cell.hdr) }
    let ty := Hd.type c.cell.hdr
    if ty = 3 ∨ ty = 4 then
      if p.bytes.length = (if p.short then 64 else 128) + p.plen then finishPacket (s.setReasm k .idle) src p
      else dropPartial s k p
    else s.setReasm k (.part p)
  | .skip true _ => s
  | _ => countOff s src c

/-- A stream's LAST or ONLY cell settles a grant of its sender: not when its packet is a group's, which sends without one,
or has been settled at its loss (R357, R358). -/
def settles (s : State) (k : Nat) : Bool :=
  match reasmAt s k with
  | .part p => !isGroup s p.dest
  | .skip group settled => !group && !settled
  | .idle => true

/-- A released cell meets its stream's reassembly (R354, R357). -/
def reassemble (s : State) (src ctx : Nat) (c : RxCell) : State :=
  let k := 2 * src + ctx
  let ty := Hd.type c.cell.hdr
  let s := if ty = 1 ∨ ty = 4 then
      let s := match reasmAt s k with
        | .part p => dropPartial s k p
        | _ => s
      beginPacket s src k c
    else s
  let due := settles s k
  let s := addCell s src k c
  if ctx = 1 ∧ (ty = 3 ∨ ty = 4) ∧ due = true then settleToken s (Hd.dest c.cell.hdr % 1024) src else s

/-! ### Reorder (R351 to R353) -/

def rxAt (s : State) (k : Nat) : RxStream := Sparse.get ⟨0, []⟩ s.fb.rx k

def State.setRx (s : State) (k : Nat) (r : RxStream) : State :=
  { s with fb := { s.fb with rx := Sparse.set ⟨0, []⟩ s.fb.rx k r } }

/-- Distance of a sequence number from the expected one (R351). -/
def cseqDelta (c e : Nat) : Nat := (c + 2 ^ 24 - e) % 2 ^ 24

/-- Release the stored cells that follow in order. -/
def drainRx (src ctx : Nat) : Nat → State → State
  | 0, s => s
  | fuel + 1, s =>
    let k := 2 * src + ctx
    let r := rxAt s k
    match splitAtFirst (fun (c : RxCell) => Hd.cseq c.cell.hdr == r.expect) r.stored with
    | none => s
    | some (pre, c, post) =>
      drainRx src ctx fuel (reassemble (s.setRx k ⟨(r.expect + 1) % 2 ^ 24, pre ++ post⟩) src ctx c)

/-- Cells of a packet in reassembly that have not arrived. -/
def Partial.cellsLeft (p : Partial) : Nat := cellCount ((if p.short then 64 else 128) + p.plen) - p.bytes.length / 256

/-- A gap of `gap` cells is lost in a stream: the packet in reassembly is discarded and, in the express stream, its grant
settled; what comes next is the rest of that packet, or of another (R352, R354, R357). -/
def loseCells (s : State) (src ctx gap : Nat) : State :=
  let k := 2 * src + ctx
  let s := if ctx = 1 then forgetExpired s src else s
  match reasmAt s k with
  | .part p =>
    let s := dropPartial s k p
    let s := if ctx = 1 ∧ isGroup s p.dest = false then settleToken s (p.dest % 1024) src else s
    s.setReasm k (if gap < p.cellsLeft then .skip (isGroup s p.dest) true else .skip false false)
  | .idle => s.setReasm k (.skip false false)
  | .skip .. => s

/-- Declare the expected cell lost (R352): E moves to the lowest stored sequence. -/
def declareLoss (s : State) (src ctx : Nat) : State :=
  let k := 2 * src + ctx
  let r := rxAt s k
  match r.stored with
  | [] => s
  | c :: cs =>
    let gap := cs.foldl (fun g x => min g (cseqDelta (Hd.cseq x.cell.hdr) r.expect))
      (cseqDelta (Hd.cseq c.cell.hdr) r.expect)
    let s := s.count 580 (some src) gap {}
    drainRx src ctx (r.stored.length + 1) ((loseCells s src ctx gap).setRx k { r with expect := (r.expect + gap) % 2 ^ 24 })

/-- Cells in the reorder store. -/
def storedCount (s : State) : Nat := sumOf (s.fb.rx.map (fun e => e.2.stored.length))

/-- The stream of the oldest stored cell. -/
def oldestStream (s : State) : Option Nat :=
  let firsts := s.fb.rx.filterMap (fun e => match e.2.stored with
    | [] => none
    | c :: cs => some (cs.foldl (fun t x => min t x.arrived) c.arrived, e.1))
  match firsts with
  | [] => none
  | x :: xs => some (xs.foldl (fun b y => if y.1 < b.1 then y else b) x).2

/-- Place of a cell relative to its stream: released, stored, or late (R351). -/
def placeCell (s : State) (c : RxCell) : State :=
  let src := Hd.src c.cell.hdr
  let ctx := flag (Hd.express c.cell.hdr)
  let k := 2 * src + ctx
  let r := rxAt s k
  let d := cseqDelta (Hd.cseq c.cell.hdr) r.expect
  if d = 0 then
    drainRx src ctx (r.stored.length + 1)
      (reassemble (s.setRx k { r with expect := (r.expect + 1) % 2 ^ 24 }) src ctx c)
  else if d < 2 ^ 23 ∧ r.stored.all (fun x => Hd.cseq x.cell.hdr != Hd.cseq c.cell.hdr) = true then
    s.setRx k { r with stored := r.stored ++ [c] }
  else s.count 579 none 1 { tc := some (Hd.tc c.cell.hdr) }

/-- A cell that would be stored finds the reorder store full (R353). -/
def findsFull (s : State) (c : RxCell) : Bool :=
  let r := rxAt s (2 * Hd.src c.cell.hdr + flag (Hd.express c.cell.hdr))
  let d := cseqDelta (Hd.cseq c.cell.hdr) r.expect
  decide (131072 ≤ storedCount s ∧ 0 < d ∧ d < 2 ^ 23) &&
    r.stored.all (fun x => Hd.cseq x.cell.hdr != Hd.cseq c.cell.hdr)

/-- A data cell for this module arrives in its stream; a full store first declares the oldest gap lost (R351,
R353). -/
def acceptCell (s : State) (c : RxCell) : State :=
  if findsFull s c then
    let s := match oldestStream s with
      | some o => declareLoss s (o / 2) (o % 2)
      | none => s
    placeCell (s.count 581 none 1 {}) c
  else placeCell s c

/-- REORDER_WINDOW_EXPIRY. WINDOW_US has passed since a stream's earliest stored cell arrived (R352). -/
def execReorderWindowExpiry (src : Nat) (express : Bool) (s : State) : Host.Outcome State Fault Refusal :=
  let ctx := flag express
  match (rxAt s (2 * src + ctx)).stored with
  | [] => .next s
  | c :: cs =>
    let first := cs.foldl (fun t x => min t x.arrived) c.arrived
    .next (declareLoss (reachTime s (first + s.rd F.FB_REORDER_CTRL.WINDOW_US 0 * 1000)) src ctx)

/-! ### HELLO (R340) -/

/-- Mode, levels and level-3 reach that this module reports on a lane (R337). -/
def helloInfo (s : State) (lane : Nat) : Nat :=
  let reach := (List.range 3).foldl (fun a g =>
    if (List.range 16).any (fun i => laneUp s (16 * g + i) && laneLevel s (16 * g + i) == 3) then a + 2 ^ (5 + g)
    else a) 0
  s.rd F.FB_LINK.LEVELS lane + modeEff s * 8 + (if modeEff s = 1 then reach else 0)

/-- HELLO_TIMER. An enabled lane that trains or is UP sends HELLO (R340), addressed to the partner it has heard of. -/
def execHelloTimer (lane : Nat) (s : State) : Host.Outcome State Fault Refusal :=
  if lane < 48 ∧ s.on F.FB_LINK.EN lane = true ∧ (laneState s lane = 1 ∨ laneState s lane = 2) then
    .next (laneControl s lane (s.rd F.FB_LINK.PEER lane) (controlMsg 6 (myId s) 0 0 0 (helloInfo s lane)))
  else .next s

/-- Peers of the groups that are UP, with lane `lane` counted as leading to `peer`, rise (R24, R340). -/
def peersRise (s : State) (lane peer : Nat) : Bool :=
  let ps := (List.range 3).filterMap (fun g => if lane / 16 = g then some peer else groupPeer s g)
  (ps.zip (ps.drop 1)).all (fun p => decide (p.1 < p.2))

/-- A mesh lane must lead where its group leads, and the groups' peers must rise (R340). -/
def meshRefuses (s : State) (lane peer : Nat) : Bool :=
  modeEff s == 1 &&
    ((match groupPeer s (lane / 16) with
      | some p => p != peer
      | none => false) || !peersRise s lane peer)

/-- The highest level that both sides offer, 0 for none. -/
def commonLevel (a b : Nat) : Nat :=
  if bitAt (a &&& b) 2 then 3 else if bitAt (a &&& b) 1 then 2 else if bitAt (a &&& b) 0 then 1 else 0

/-- A HELLO arrives on a lane: it negotiates the level, or the lane is refused (R340). While the lane is under
reinstatement agreement is withheld (R509). -/
def hearHello (s : State) (lane : Nat) (msg : Word) : State :=
  let peer := bitsOf msg.toNat 4 6
  let info := bitsOf msg.toNat 48 16
  if !s.on F.FB_LINK.EN lane || (laneState s lane != 1 && laneState s lane != 2) then s
  else
    let s := (s.wr F.FB_LINK.PEER lane peer)
    let s := { s with fb := { s.fb with hello := Sparse.set 0 s.fb.hello lane info } }
    if laneUp s lane then lanesChanged s
    else if decide (4 ≤ svState s (96 + lane) ∧ svState s (96 + lane) ≤ 6) then s
    else
      let level := commonLevel (s.rd F.FB_LINK.LEVELS lane) (bitsOf info 0 3)
      if level = 0 ∨ bitsOf info 3 2 ≠ modeEff s ∨ meshRefuses s lane peer = true then
        (s.wr F.FB_LINK.STATE lane 3).count 577 (some lane) 1 {}
      else lanesChanged ((s.wr F.FB_LINK.LEVEL_EFF lane level).wr F.FB_LINK.STATE lane 2)

/-- HELLO (R340). -/
def execHello (lane : Nat) (msg : Word) (s : State) : Host.Outcome State Fault Refusal :=
  .next (if lane < 48 then hearHello s lane msg else s)

/-! ### Control messages (R337) -/

/-- A control message received on a lane. -/
def hearControl (s : State) (lane : Nat) (msg : Word) : State :=
  let m := msg.toNat
  let mod_ := bitsOf m 4 6
  let dest := bitsOf m 16 16
  match bitsOf m 0 4 with
  | 1 => if dest / 1024 = myId s then addRequest s mod_ (dest % 1024) (bitsOf m 32 8) else s
  | 2 => if mod_ = myId s then takeGrant s dest (bitsOf m 40 8) else s
  | 3 => if dest / 1024 = myId s then cancelToken s (dest % 1024) mod_ (bitsOf m 40 8) else s
  | 4 => hearFlow s dest true
  | 5 => hearFlow s dest false
  | 6 => hearHello s lane msg
  | _ => s

/-- XOFF (R349). -/
def execXoff (dest : Nat) (s : State) : Host.Outcome State Fault Refusal := .next (hearFlow s dest true)

/-- XON (R349). -/
def execXon (dest : Nat) (s : State) : Host.Outcome State Fault Refusal := .next (hearFlow s dest false)

/-- REQUEST. A module's request reaches the arbiter of a destination of this module (R355, R358). -/
def execRequest (src dest cells : Nat) (s : State) : Host.Outcome State Fault Refusal :=
  .next (if dest / 1024 = myId s then addRequest s src (dest % 1024) cells else s)

/-- GRANT. A grant reaches its VOQ (R357). -/
def execGrant (dest token : Nat) (s : State) : Host.Outcome State Fault Refusal := .next (takeGrant s dest token)

/-- CANCEL. A cancel settles its token (R357). -/
def execCancel (src dest token : Nat) (s : State) : Host.Outcome State Fault Refusal :=
  .next (if dest / 1024 = myId s then cancelToken s (dest % 1024) src token else s)

/-- GRANT_ARBITRATION. The first requesting module at or after the pointer is granted when G allows (R356). -/
def execGrantArbitration (d : Nat) (s : State) : Host.Outcome State Fault Refusal :=
  let a := arbAt s d
  let turn := (List.range 64).map (fun i => (a.ptr + i) % 64)
  match turn.find? (fun m => a.waiting.any (fun w => w.1 == m)) with
  | none => .next s
  | some m =>
    match a.waiting.find? (fun w => w.1 == m) with
    | none => .next s
    | some w =>
      if a.g = 0 ∨ a.g + w.2 ≤ s.rd F.FB_EXPRESS.EXP_CELLS 0 ∨ powerOf s d ≠ 0 then .next (grantTo s d m w.2)
      else .next s

/-- GRANT_EXPIRY. GRANT_TIMEOUT_US has passed on an open token (R357). -/
def execGrantExpiry (d token : Nat) (s : State) : Host.Outcome State Fault Refusal :=
  let a := arbAt s d
  match a.tokens.find? (fun t => t.token == token && !t.expired) with
  | none => .next s
  | some t =>
    let s := reachTime s (t.granted + s.rd F.FB_EXPRESS.GRANT_TIMEOUT_US 0 * 1000)
    .next ((s.setArb d (expireToken a token)).count 583 none 1 {})

/-! ### Cells on a lane (R336, R347, R348) -/

/-- A cell for another module: relayed once in a mesh, else misrouted (R347, R348). -/
def relayCell (s : State) (lane m : Nat) (c : Cell) : State :=
  let lanes := relayLanes s m
  if modeEff s = 1 ∧ Hd.relayed c.hdr = false ∧ laneLevel s lane = 3 ∧ lanes.isEmpty = false then
    let r := sprayLane s m 2 lanes
    match r.2 with
    | some k => sendCell r.1 k { c with hdr := relayHeader c.hdr }
    | none => r.1
  else s.count 578 none 1 { tc := some (Hd.tc c.hdr) }

/-- Messages of a CONTROL cell (R337). -/
def cellMsgs (c : Cell) : List Word :=
  (List.range (min (Hd.cbytes c.hdr) 256 / 8)).map (fun i => BitVec.ofNat 64 (leAt c.payload (8 * i) 8))

/-- A HELLO, which is for whoever stands at the lane's other end. -/
def isHello (msg : Word) : Bool := bitsOf msg.toNat 0 4 == 6

/-- A good cell on a lane. -/
def routeCell (s : State) (lane : Nat) (c : Cell) : State :=
  let dest := Hd.dest c.hdr
  if Hd.type c.hdr = 5 then
    if dest / 1024 = myId s ∨ (cellMsgs c).any isHello = true then
      (cellMsgs c).foldl (fun s m => hearControl s lane m) s
    else relayCell s lane (dest / 1024) c
  else if dest / 1024 = myId s ∨ isGroup s dest = true ∨ twinLane s lane = true then
    acceptCell s ⟨c, s.clk.ns, laneLevel s lane == 1 && !twinLane s lane⟩
  else relayCell s lane (dest / 1024) c

/-- CELL_RECEIVE. A cell arrives: on a fabric lane (one that trains hears HELLO alone), or, with lane 48, the oldest cell on the crossbar (R336,
R347, R351). A header error on a lane in SHADOW fails its reinstatement (R509). -/
def execCellReceive (lane : Nat) (header : BitVec 128) (payload : List Byte) (s : State) :
    Host.Outcome State Fault Refusal :=
  if lane < 48 then
    if !laneUp s lane then
      .next (if svState s (96 + lane) = 6 ∧ headerGood header = false then failUnit s (96 + lane)
        else if laneState s lane = 1 ∧ headerGood header = true ∧ Hd.type header = 5 then
          ((cellMsgs ⟨header, payload⟩).filter isHello).foldl (fun s m => hearControl s lane m) s
        else s)
    else
      let s := s.count 1230 (some lane) 1 { tc := some (Hd.tc header) }
      if Hd.type header = 0 then .next s
      else if s.rd F.SY_COAT_STATUS.GENERATION 0 = 0 then .next (s.count 1155 none 1 {})
      else if !headerGood header then .next (s.count 576 (some lane) 1 {})
      else .next (routeCell s lane ⟨header, payload⟩)
  else
    match s.fb.xbar with
    | [] => .next s
    | c :: cs => .next (acceptCell { s with fb := { s.fb with xbar := cs } } ⟨c, s.clk.ns, false⟩)

end Sys2Proof.Machine
end

