-- ==== Sys2Proof/Machine/Fresco.lean ====
section
/-! DEFINITION. Fresco: the capture ring, sealing, targets, the Lath's capture record, and reading back (R394 to
R424). -/

namespace Sys2Proof.Machine

/-! ### Capture records (R401, R402) -/

/-- Padding to a multiple of 8. -/
def pad8 (n : Nat) : Nat := (n + 7) / 8 * 8

/-- The header of a capture record (R401), then the copy's bytes, padded. -/
def captureRec (s : State) (x : Queued) (time : Nat) : CapRec :=
  let tk := x.pkt.ticket
  let m := Tk.session tk
  let n := x.len
  { bytes := slice (leBytes 4 (32 + n) ++ leBytes 2 m ++ leBytes 2 (Tk.source tk) ++ leBytes 8 (Tk.rxTime tk) ++
      leBytes 4 n ++ [BitVec.ofNat 8 (Tk.tc tk), BitVec.ofNat 8 (flag (s.on F.FB_MSESS.TRUNC m)),
        BitVec.ofNat 8 x.src, 0] ++ leBytes 8 time ++ x.pkt.data) 0 (pad8 (32 + n))
    session := m
    time := time }

/-! ### Control and staging (R403 to R406) -/

def State.setFr (s : State) (f : FrescoSt → FrescoSt) : State := { s with fr := f s.fr }

def frState (s : State) : Nat := s.rd F.FR_STATUS.STATE 0
def tgState (s : State) (t : Nat) : Nat := s.rd F.FR_TARGET.STATE t

/-- STATE is NO_TARGET while no target is ACTIVE (R409). -/
def frSettle (s : State) : State :=
  if frState s = 2 ∨ frState s = 4 then
    s.wr F.FR_STATUS.STATE 0 (if (List.range 72).any (fun t => tgState s t == 1) then 2 else 4)
  else s

/-- Segment buffers in use (R403). -/
def stageUsed (s : State) : Nat := s.fr.segs.length + flag s.fr.opened.isSome

/-- The lowest free segment buffer. -/
def freeSegBuf (s : State) : Nat :=
  let used := s.fr.segs.map (fun x => x.seg.buffer) ++ (s.fr.opened.toList.map (·.buffer))
  ((List.range 480).find? (fun b => !used.contains b)).getD 0

/-- A new open segment of the ring. -/
def newSeg (s : State) : Seg :=
  { module := myId s, seq := s.fr.nextSeq, ringId := s.fr.ringId, records := [], used := 0, drops := 0, flags := 0
    prev := 0, brk := none, firstAt := s.clk.ns, buffer := freeSegBuf s, digest := 0, readAs := none }

/-! ### Targets (R408 to R411) -/

/-- Segments in flight to a target. -/
def inFlight (s : State) (t : Nat) : Nat :=
  (s.fr.segs.filter (fun x => x.target == t && x.stage != .waiting && x.stage != .done)).length

/-- A target may take a sealed segment (R409), while Fresco and the root ports are powered (R541). -/
def targetOpen (s : State) (t : Nat) : Bool :=
  s.lt.rootPower && s.on F.FR_TARGET.EN t && tgState s t == 1 &&
    decide (s.rd F.FR_TARGET.W t < s.rd F.FR_CTRL.RETIRE_W 0 ∧ inFlight s t < 4 ∧ 0 < s.rd F.FR_TARGET.SLOTS t)

/-- The target for the next segment: lowest W, then lowest number (R409). -/
def chooseTarget (s : State) : Option Nat :=
  match (List.range 72).filter (targetOpen s) with
  | [] => none
  | t :: ts => some (ts.foldl (fun b x => if s.rd F.FR_TARGET.W x < s.rd F.FR_TARGET.W b then x else b) t)

/-- The bytes part of the wear figure, and W (R408). -/
def wearFigure (s : State) (t : Nat) : Nat :=
  let rated := s.rd F.FR_TARGET.ENDURANCE_TB t
  let byBytes := if rated = 0 then 0 else s.rd F.FR_TARGET.BYTES t * 1024 / (rated * 1000000000000)
  let byLog := if s.rd F.FR_TARGET.KIND t = 1 then Sparse.get 0 s.fr.wearPct t * 1024 / 100 else 0
  min 1023 (max byLog byBytes)

/-- A target whose W has reached RETIRE_W retires, which enters the life record (R410, R519). -/
def retireWorn (s : State) (t : Nat) : State :=
  if s.rd F.FR_CTRL.RETIRE_W 0 ≤ s.rd F.FR_TARGET.W t ∧ tgState s t = 1 then
    lifeEvent (frSettle (s.wr F.FR_TARGET.STATE t 3)) 11 t 0
  else s

/-- W is taken anew (R408). -/
def takeWear (s : State) (t : Nat) : State := retireWorn (s.wr F.FR_TARGET.W t (wearFigure s t)) t

def roceAt (s : State) (t : Nat) : RoceSt := Sparse.get ⟨0, 0, 0⟩ s.fr.roce t

def State.setRoce (s : State) (t : Nat) (r : RoceSt) : State :=
  s.setFr (fun f => { f with roce := Sparse.set ⟨0, 0, 0⟩ f.roce t r })

/-! ### RoCEv2 frames (R415, R416) -/

/-- One bit of the reflected CRC-32 of IEEE 802.3. -/
def crc32Bit (c : Nat) : Nat := if c % 2 = 1 then (c / 2) ^^^ 0xEDB88320 else c / 2

def crc32Byte (c b : Nat) : Nat :=
  crc32Bit (crc32Bit (crc32Bit (crc32Bit (crc32Bit (crc32Bit (crc32Bit (crc32Bit (c ^^^ b))))))))

/-- CRC-32 of IEEE 802.3, which the ICRC uses. -/
def crc32 (bs : List Byte) : Nat := bs.foldl (fun c b => crc32Byte c b.toNat) 0xFFFFFFFF ^^^ 0xFFFFFFFF

/-- Internet checksum of a header of 16-bit words. -/
def ipChecksum (bs : List Byte) : Nat :=
  let sum := (List.range (bs.length / 2)).foldl (fun a i => a + beNat (slice bs (2 * i) 2)) 0
  0xFFFF ^^^ fold16 (fold16 sum)

/-- Where the IP header starts: after the Ethernet header and at most one 802.1Q tag (R416). -/
def ipOffset (hdr : List Byte) : Nat := if slice hdr 12 2 = [0x81, 0x00] then 18 else 14

/-- The template's headers with lengths, checksum and UDP fields filled in for `n` bytes after the UDP header,
ICRC included (R416). -/
def fillHeaders (hdr : List Byte) (n : Nat) : List Byte :=
  let ip := ipOffset hdr
  let v6 := (hdr.getD ip 0).toNat / 16 == 6
  let ihl := if v6 then 40 else (hdr.getD ip 0).toNat % 16 * 4
  let udp := ip + ihl
  let h := splice hdr (udp + 2) (beBytes 2 4791 ++ beBytes 2 (n + 8) ++ [0, 0])
  if v6 then splice h (ip + 4) (beBytes 2 (n + 8))
  else
    let h := splice (splice h (ip + 2) (beBytes 2 (ihl + n + 8))) (ip + 10) [0, 0]
    splice h (ip + 10) (beBytes 2 (ipChecksum (slice h ip ihl)))

/-- The invariant CRC of a RoCEv2 packet: the IP packet with its changing fields as ones, after 8 bytes of ones
(the standard's). -/
def icrc (ipPkt : List Byte) : List Byte :=
  let v6 := (ipPkt.getD 0 0).toNat / 16 == 6
  let l := if v6 then 40 else (ipPkt.getD 0 0).toNat % 16 * 4
  let m := if v6 then
      splice (splice ipPkt 0 [0x6F, 0xFF, 0xFF, 0xFF]) 7 [0xFF]
    else splice (splice (splice ipPkt 1 [0xFF]) 8 [0xFF]) 10 [0xFF, 0xFF]
  let m := splice (splice m (l + 6) [0xFF, 0xFF]) (l + 12) [0xFF]
  leBytes 4 (crc32 (List.replicate 8 0xFF ++ m))

/-- Packets of a segment: zeros over its slot's header block (R396), 2,047 of its record area, then its header block
(R415). -/
def rocePackets : Nat := 2049

/-- Packet `i` of a segment written to slot `slot` of target `t` (R396, R415, R416). -/
def roceFrame (s : State) (t : Nat) (g : Seg) (slot psn i : Nat) : List Byte :=
  let hdr := leBytes (s.rd F.FR_TEMPLATE.HLEN t) (s.rdWide F.FR_TEMPLATE.HDR t)
  let va := s.rd F.FR_TARGET.BASE t + 2 ^ 23 * slot
  let only := i == 0 || i == 2048
  let op := if only then 0x0A else if i = 1 then 0x06 else if i = 2047 then 0x08 else 0x07
  let bth : List Byte := [BitVec.ofNat 8 op, 0x40, 0xFF, 0xFF, 0] ++ beBytes 3 (s.rd F.FR_TARGET.NSID t) ++
    [if only || i == 2047 then 0x80 else 0] ++ beBytes 3 (psn % 2 ^ 24)
  let reth (a n : Nat) : List Byte := beBytes 8 (a % 2 ^ 64) ++ beBytes 4 (s.rd F.FR_TARGET.RKEY t) ++ beBytes 4 n
  let ext := if only then reth va 4096 else if i = 1 then reth (va + 4096) segArea else []
  let part :=
    if i = 0 then leBytes 4096 0 else if i = 2048 then segHeader g else slice (segBytes g) (4096 * i) 4096
  let body := bth ++ ext ++ part
  let h := fillHeaders hdr (body.length + 4)
  let ip := ipOffset h
  h ++ body ++ icrc (h.drop ip ++ body)

/-- Enqueue packets `i` on of a segment on the target's egress queue, as any packet is enqueued there (R312, R330, R350,
R363, R416). -/
def sendRoce (s : State) (t : Nat) (x : SealedSeg) (psn i : Nat) : State :=
  let eq := s.rd F.FR_TARGET.EQ t
  let d := s.rd F.FR_TARGET.LDEST t
  let tk : BitVec 1024 := tkPut (tkPut 0 64 0 8 0xF5) 65 0 8 t
  let tk := tkPut (tkPut tk 18 0 15 eq) 0 0 16 (ownDest s d)
  let s := (List.range (rocePackets - i)).foldl (fun s k =>
    enqueueEgress s d eq (Pkt.withLength ⟨tk, roceFrame s t x.seg x.slot (psn + i + k) (i + k)⟩) noBuffer (myId s)) s
  s.setRoce t { (roceAt s t) with sentAt := s.clk.ns }

/-! ### NVMe Writes (R396, R412, R413) -/

/-- Logical block size of a target's namespace. -/
def blockSize (t : Nat) : Nat := if Config.bigBlocks t then 4096 else 512

/-- The Write command of one part of a segment's writing: opcode 01h, FUA set. -/
def nvmeWrite (s : State) (x : SealedSeg) (p : NvmePart) : NvmeCmd :=
  let t := x.target
  let at_ : Nat × Nat := match p with
    | .zero => (0, 4096)
    | .area i => (4096 + i * 2 ^ 20, min (2 ^ 20) (segArea - i * 2 ^ 20))
    | .header => (0, 4096)
  { target := t, nsid := s.rd F.FR_TARGET.NSID t, opcode := 0x01, fua := true
    lba := s.rd F.FR_TARGET.BASE t + (segSize * x.slot + at_.1) / blockSize t
    blocks := at_.2 / blockSize t, seq := x.seg.seq, part := p }

/-- Commands of the record area: 1 MiB each, the last one less its header block. -/
def areaParts : List NvmePart := (List.range 8).map .area

/-- Send the commands of some parts of a segment. -/
def sendNvme (s : State) (x : SealedSeg) (ps : List NvmePart) : State :=
  ps.foldl (fun s p => s.emit (.nvme (nvmeWrite s x p))) s

/-- Commands begun now, for the first time. -/
def beginCmds (s : State) (ps : List NvmePart) : List NvmeOpen := ps.map (fun p => ⟨p, false, s.clk.ns⟩)

/-! ### Writing sealed segments (R396, R409, R413, R415) -/

/-- Change the sealed segment of a sequence. -/
def updSealed (s : State) (seq : Nat) (f : SealedSeg → SealedSeg) : State :=
  s.setFr (fun r => { r with segs := updateFirst (fun x => x.seg.seq == seq) f r.segs })

/-- The directory entry of a sealed segment (R423). -/
def dirEntry (g : Seg) (slot target : Nat) (durable : Bool) : DirEntry :=
  ⟨g.seq, slot, target, durable, g.brk.isSome, bitAt g.flags 0, g.firstTime, g.lastTime⟩

def setDir (s : State) (e : DirEntry) : State :=
  s.setFr (fun r => { r with directory := Sparse.set none r.directory (e.seq % 2 ^ 23) (some e) })

/-- Begin writing a sealed segment to a target: its slot is NEXT, whose header block is zeroed first (R396). -/
def beginWrite (s : State) (x : SealedSeg) (t : Nat) : State :=
  let slot := s.rd F.FR_TARGET.NEXT t
  let slots := s.rd F.FR_TARGET.SLOTS t
  let s := s.wr F.FR_TARGET.NEXT t (if slot + 1 < slots then slot + 1 else 0)
  let s := s.setFr (fun r => { r with stored := Sparse.set none r.stored (pairKey t slot) none })
  let s := setDir s (dirEntry x.seg (s.rd F.FR_TARGET.FIRST_SLOT t + slot) t false)
  if s.rd F.FR_TARGET.KIND t = 2 then
    let psn := (roceAt s t).nextPsn
    let s := s.setRoce t { (roceAt s t) with nextPsn := (psn + rocePackets) % 2 ^ 24 }
    let x := { x with target := t, slot := slot, stage := .roce psn 0 }
    sendRoce (updSealed s x.seg.seq (fun _ => x)) t x psn 0
  else
    let x := { x with target := t, slot := slot, stage := .nvme (beginCmds s [.zero]) }
    sendNvme (updSealed s x.seg.seq (fun _ => x)) x [.zero]

/-- Sealed segments that wait for a target go to one, in sequence order (R409). -/
def placeSealed : Nat → State → State
  | 0, s => s
  | fuel + 1, s =>
    match s.fr.segs.find? (fun x => x.stage == .waiting), chooseTarget s with
    | some x, some t => placeSealed fuel (beginWrite s x t)
    | _, _ => s

def placeAll (s : State) : State := placeSealed s.fr.segs.length s

/-- What the Lath holds of a target (R411). -/
def targetRec (s : State) (t : Nat) : TargetRec :=
  ⟨s.fr.ringId, s.rd F.FR_TARGET.KIND t, s.rd F.FR_TARGET.NSID t, s.rd F.FR_TARGET.FIRST_SLOT t, s.rd F.FR_TARGET.SLOTS t,
    s.rd F.FR_TARGET.NEXT t, s.rd F.FR_TARGET.BYTES t⟩

/-- The record's entry of a target: as it stands for one in use, and else as the Lath already holds it. -/
def heldTarget (s : State) (t : Nat) : Option (Nat × TargetRec) :=
  if s.on F.FR_TARGET.EN t then some (t, targetRec s t)
  else match s.fr.sram with
    | some c => c.targets.find? (fun (x : Nat × TargetRec) => x.1 == t)
    | none => none

/-- The capture record as it stands (R418). -/
def captureNow (s : State) (atSeal : Bool) : CaptureRec :=
  { ringId := s.fr.ringId
    durable := s.rd F.FR_DURABLE.SEQ 0
    durableDigest := s.rdWide F.FR_DIGEST.DIGEST 0
    lastSealed := s.fr.lastSealed
    sealedDigest := s.fr.sealedDigest
    targets := (List.range 72).filterMap (heldTarget s)
    atSeal := atSeal }

/-- Varton updates the record in the Lath's SRAM (R418); one updated while STATE is SEALED is of that seal. -/
def updateRecord (s : State) : State :=
  let r := captureNow s (frState s == 3)
  s.setFr (fun f => { f with sram := some r })

/-- The staging buffer of a segment holds an uncorrectable block: its bytes reach the target as read (R456). -/
def bufferBad (s : State) (b : Nat) : Bool :=
  let first := (stagingBase + directorySize + b * segSize) / 32
  s.hb.bad.any (fun e => e.2 && (unpair e.1).1 == 0 &&
    decide (first ≤ (unpair e.1).2 ∧ (unpair e.1).2 < first + 262144))

/-- Completed segments at the front of the sequence become durable (R409, R413, R415, R418). -/
def settleDurable : Nat → State → State
  | 0, s => s
  | fuel + 1, s =>
    match s.fr.segs with
    | x :: xs =>
      if x.stage = .done then
        let s := s.setFr (fun f => { f with segs := xs })
        let s := setDir s (dirEntry x.seg (s.rd F.FR_TARGET.FIRST_SLOT x.target + x.slot) x.target true)
        let s := (s.wr F.FR_DURABLE.SEQ 0 x.seg.seq).wrWide F.FR_DIGEST.DIGEST 0 x.seg.digest
        let s := if x.seg.brk.isSome then s.wr F.FR_STATUS.BREAKS 0 (s.rd F.FR_STATUS.BREAKS 0 + 1) else s
        settleDurable fuel (updateRecord s)
      else s
    | [] => s

/-- The segment that a target holds after writing `g`: as sealed; or, where its buffer had an uncorrectable block, with
bytes whose digest is a free value (R456). -/
def writtenSeg (s : State) (g : Seg) : State × Seg :=
  if s.hb.bad.isEmpty || !bufferBad s g.buffer then (s, g)
  else
    let r := s.freshBytes 32
    (r.2, { g with readAs := some (leNat r.1) })

/-- A segment's writes are complete: it stands on its target (R413, R415). -/
def completeWrite (s : State) (x : SealedSeg) : State :=
  let w := writtenSeg s x.seg
  let s := w.1.setFr (fun f => { f with stored := Sparse.set none f.stored (pairKey x.target x.slot) (some w.2) })
  let s := updSealed s x.seg.seq (fun y => { y with stage := .done })
  let s := s.wr F.FR_TARGET.BYTES x.target (s.rd F.FR_TARGET.BYTES x.target + segSize)
  let s := takeWear s x.target
  placeAll (settleDurable s.fr.segs.length s)

/-- Segments in flight wait for a target again. -/
def stagingWaits (s : State) : State :=
  s.setFr (fun f => { f with segs := f.segs.map (fun x =>
    if x.stage ≠ .done ∧ x.stage ≠ .waiting then { x with stage := .waiting } else x) })

/-- A target fails: its segments in flight go, whole, to other targets (R410). -/
def failTarget (s : State) (t : Nat) : State :=
  let s := frSettle (s.wr F.FR_TARGET.STATE t 2)
  let s := s.setFr (fun f => { f with segs := f.segs.map (fun x =>
    if x.target = t ∧ x.stage ≠ .done ∧ x.stage ≠ .waiting then { x with stage := .waiting } else x) })
  placeAll s

/-! ### Sealing (R406) -/

/-- Seal a segment: PREV, DROPS and flags are set, the digest computed, and it waits for a target. -/
def sealSeg (s : State) (g : Seg) (flags : Nat) : State :=
  let g := { g with flags := flags, drops := s.fr.drops, prev := s.fr.sealedDigest }
  let g := { g with digest := segDigest g }
  let s := s.setFr (fun f => { f with
    opened := none, drops := 0, lastSealed := g.seq, sealedDigest := g.digest, nextSeq := g.seq + 1
    segs := f.segs ++ [⟨g, 0, 0, .waiting⟩] })
  placeAll s

/-- Seal the open segment; one without records is never sealed (R406). -/
def sealOpen (s : State) (flags : Nat) : State :=
  match s.fr.opened with
  | some g => if g.records.isEmpty then s else sealSeg s g flags
  | none => s

/-- Staging has room for a record of `n` bytes (R404). -/
def stageRoom (s : State) (n : Nat) : Bool :=
  decide (stageUsed s < 480) ||
    (match s.fr.opened with
      | some g => decide (g.used + n ≤ segArea)
      | none => false)

/-- CAP_TIME of a record that enters staging now: the PTP time, or the ring's last CAP_TIME where that is later (R402). -/
def capTime (s : State) : Nat := max s.clk.ptp s.fr.lastCap

/-- Add a record: to the open segment, or to a new one after sealing it (R406). -/
def addRecord (s : State) (r : CapRec) : State :=
  let n := r.bytes.length
  let s := match s.fr.opened with
    | some g => if g.used + n ≤ segArea then s else sealOpen s 0
    | none => s
  let g := s.fr.opened.getD (newSeg s)
  s.setFr (fun f => { f with
    opened := some { g with records := g.records ++ [r], used := g.used + n }, lastCap := r.time })

/-- SEAL_TIMEOUT. SEAL_MS has passed since the open segment's first record (R406). -/
def execSealTimeout (s : State) : Host.Outcome State Fault Refusal :=
  match s.fr.opened with
  | some g =>
    if frState s = 2 ∨ frState s = 4 then
      .next (sealOpen (reachTime s (g.firstAt + s.rd F.FR_CTRL.SEAL_MS 0 * 1000000)) 0)
    else .next s
  | none => .next s

/-- FR_CTRL.CMD FLUSH (R406). -/
def flushCmd (s : State) : State := if frState s = 2 ∨ frState s = 4 then sealOpen s 4 else s

/-- FR_CTRL.CMD NEW_RING: acts only while EN is 0 (FR_CTRL). -/
def newRingCmd (s : State) : State :=
  if s.on F.FR_CTRL.EN 0 then s
  else
    let s := ((s.wr F.FR_STATUS.BREAKS 0 0).wr F.FR_DURABLE.SEQ 0 0).wrWide F.FR_DIGEST.DIGEST 0 0
    updateRecord (s.setFr (fun f => { f with
      ringId := lifeSeconds s, nextSeq := 1, lastSealed := 0, sealedDigest := 0, opened := none, segs := []
      directory := [], started := true, due := none, lastCap := 0 }))

/-! ### Completions (R413, R414, R417) -/

/-- The oldest segment in flight of a sequence on a target. -/
def findWrite (s : State) (t seq : Nat) : Option SealedSeg :=
  s.fr.segs.find? (fun x => x.seg.seq == seq && x.target == t)

/-- A segment in flight to an NVMe target, and the command of a part that has not completed. -/
def findCmd (s : State) (t seq : Nat) (p : NvmePart) : Option (SealedSeg × List NvmeOpen × NvmeOpen) :=
  match findWrite s t seq with
  | none => none
  | some x =>
    match x.stage with
    | .nvme l => (l.find? (fun c => c.part == p)).map (fun c => (x, l, c))
    | _ => none

/-- Change the open commands of a segment. -/
def setCmds (s : State) (x : SealedSeg) (l : List NvmeOpen) : State :=
  updSealed s x.seg.seq (fun y => { y with stage := .nvme l })

/-- An NVMe command fails: it is retried once, then its target fails (R414). -/
def nvmeFail (s : State) (x : SealedSeg) (l : List NvmeOpen) (c : NvmeOpen) : State :=
  if c.retried then failTarget s x.target
  else sendNvme (setCmds s x (updateFirst (fun d => d.part == c.part) (fun d => { d with retried := true, since := s.clk.ns }) l))
    x [c.part]

/-- An NVMe command succeeds: the record area follows the zeros, and the header block the last command of the record
area (R396, R413). -/
def nvmeDone (s : State) (x : SealedSeg) (l : List NvmeOpen) (p : NvmePart) : State :=
  let rest := l.filter (fun c => c.part != p)
  match p with
  | .zero => sendNvme (setCmds s x (beginCmds s areaParts)) x areaParts
  | .area _ =>
    if rest.isEmpty then sendNvme (setCmds s x (beginCmds s [.header])) x [.header] else setCmds s x rest
  | .header => completeWrite s x

/-- NVME_COMPLETION. A Write of a segment completes (R413, R414). -/
def execNvmeCompletion (target seq : Nat) (part : NvmePart) (ok : Bool) (s : State) :
    Host.Outcome State Fault Refusal :=
  match findCmd s target seq part with
  | none => .next s
  | some (x, l, c) => .next (if ok then nvmeDone s x l part else nvmeFail s x l c)

/-- NVME_TIMEOUT. A command has not completed in 2 s (R414). -/
def execNvmeTimeout (target seq : Nat) (part : NvmePart) (s : State) : Host.Outcome State Fault Refusal :=
  match findCmd s target seq part with
  | none => .next s
  | some (x, l, c) => .next (nvmeFail (reachTime s (c.since + 2000000000)) x l c)

/-- NVME_REMOVAL. A controller's removal fails its targets (R414). -/
def execNvmeRemoval (root : Nat) (s : State) : Host.Outcome State Fault Refusal :=
  .next (((List.range 8).filter (fun t =>
    s.on F.FR_TARGET.EN t && s.rd F.FR_TARGET.KIND t == 1 && s.rd F.FR_TARGET.ROOT t == root)).foldl failTarget s)

/-- Packets of a segment that PSN `psn` acknowledges, from its first PSN (R415). -/
def acked (first psn : Nat) : Nat :=
  let d := (psn + 2 ^ 24 - first) % 2 ^ 24
  if d < 2 ^ 23 then min (d + 1) rocePackets else 0

/-- Acknowledge what a PSN covers on a target. -/
def roceProgress (s : State) (t psn : Nat) : State :=
  s.fr.segs.foldl (fun s x =>
    match x.stage with
    | .roce first old =>
      if x.target ≠ t then s
      else
        let n := acked first psn
        if n ≤ old then s
        else
          let s := s.setRoce t { (roceAt s t) with retries := 0, sentAt := s.clk.ns }
          if n = rocePackets then completeWrite s x
          else updSealed s x.seg.seq (fun y => { y with stage := .roce first n })
    | _ => s) s

/-- Go-back-N from the first packet not acknowledged; seven without progress fail the target (R417). -/
def roceRetry (s : State) (t : Nat) : State :=
  let r := roceAt s t
  if 7 ≤ r.retries then failTarget s t
  else
    let s := s.setRoce t { r with retries := r.retries + 1 }
    s.fr.segs.foldl (fun s x =>
      match x.stage with
      | .roce first old => if x.target = t then sendRoce s t x first old else s
      | _ => s) s

/-- An ACK covers the packets up to its PSN; a NAK sequence error asks for its PSN again (R417). -/
def roceAnswer (s : State) (t psn : Nat) (answer : RoceAnswer) : State :=
  match answer with
  | .ack => roceProgress s t psn
  | .nakSeq => roceRetry (roceProgress s t ((psn + 2 ^ 24 - 1) % 2 ^ 24)) t

/-- ROCE_ACK. An answer reaches the sink (R417). -/
def execRoceAck (target psn : Nat) (answer : RoceAnswer) (s : State) : Host.Outcome State Fault Refusal :=
  .next (roceAnswer s target psn answer)

/-- PSN and answer of an RC Acknowledge packet (opcode 0x11 of the BTH, AETH after it): syndrome 0 an ACK, 3 with code 0
a NAK sequence error (the InfiniBand specification's). -/
def parseAck (d : List Byte) : Option (Nat × RoceAnswer) :=
  let ip := ipOffset d
  let b := (d.getD ip 0).toNat
  let bth := ip + (if b / 16 = 6 then 40 else b % 16 * 4) + 8
  let syn := (d.getD (bth + 12) 0).toNat
  let psn := beNat (slice d (bth + 9) 3)
  if d.getD bth 0 ≠ 0x11 ∨ d.length < bth + 16 then none
  else if syn / 32 % 4 = 0 then some (psn, .ack)
  else if syn % 128 = 96 then some (psn, .nakSeq)
  else none

/-- Fresco takes a packet that is no copy: the response traffic of R417 acts on its target; any other is a sink misuse
(R407). -/
def takeOther (s : State) (p : Pkt) : State :=
  if tkGet p.ticket 64 0 8 = 0xF6 then
    match parseAck p.data with
    | some (psn, a) => roceAnswer s (tkGet p.ticket 65 0 8) psn a
    | none => s
  else s.count 768 none 1 p.attr

/-- FRESCO_RECORD. Port scheduler 160 chooses a copy, Fresco takes it and adds its record (R301, R401 to R407, R417). -/
def execFrescoRecord (s : State) : Host.Outcome State Fault Refusal :=
  if frState s ≠ 2 ∧ frState s ≠ 4 then .next s
  else
    let r := choosePort s 160
    match r.2 with
    | .head path x =>
      if !stageRoom s (pad8 (32 + x.len)) then .next (flowCheck r.1 160)
      else
        let t := takeChosen r.1 (Elem.port 160).code path x
        if !t.2 then .next (flowCheck t.1 160)
        else
          let s := flowCheck (releaseBuf t.1 x.handle) 160
          if Tk.mirror x.pkt.ticket then .next (addRecord s (captureRec s x (capTime s)))
          else .next (takeOther s x.pkt)
    | _ => .next (flowCheck r.1 160)

/-- ROCE_ACK_TIMEOUT. No acknowledgement has come within 1 ms (R417). -/
def execRoceAckTimeout (target : Nat) (s : State) : Host.Outcome State Fault Refusal :=
  if s.fr.segs.any (fun x => x.target == target && (match x.stage with
      | .roce _ _ => true
      | _ => false)) then
    .next (roceRetry (reachTime s ((roceAt s target).sentAt + 1000000)) target)
  else .next s

/-- WEAR_POLL. An NVMe target's Percentage Used is read (R408, R410). -/
def execWearPoll (target percentageUsed : Nat) (s : State) : Host.Outcome State Fault Refusal :=
  if target < 8 ∧ s.on F.FR_TARGET.EN target = true ∧ s.rd F.FR_TARGET.KIND target = 1 then
    .next (takeWear (s.setFr (fun f => { f with
      wearPct := Sparse.set 0 f.wearPct target percentageUsed })) target)
  else .next s

/-! ### Start (R418, R421, R422) -/

/-- The segment that a slot of a target shows to this ring: a valid header's. -/
def ringSeg (s : State) (t slot : Nat) : Option Seg :=
  match Sparse.get none s.fr.stored (pairKey t slot) with
  | some g => if g.ringId = s.fr.ringId then some g else none
  | none => none

/-- From a slot onward while SEQ rises, the last valid header (R421). -/
def scanSlots (s : State) (t : Nat) : Nat → Nat → Option Seg → Option Seg
  | 0, _, best => best
  | fuel + 1, slot, best =>
    let next := (slot + 1) % s.rd F.FR_TARGET.SLOTS t
    match ringSeg s t slot, best with
    | some g, some b => if b.seq < g.seq then scanSlots s t fuel next (some g) else best
    | some g, none => scanSlots s t fuel next (some g)
    | none, _ => best

/-- The highest valid sequence on a target: the headers at NEXT − 1, NEXT, NEXT + 1 and onward. -/
def scanTarget (s : State) (t : Nat) : Option Seg :=
  let n := s.rd F.FR_TARGET.SLOTS t
  let next := s.rd F.FR_TARGET.NEXT t
  scanSlots s t (s.fr.stored.length + 1) (next % n) (ringSeg s t ((next + n - 1) % n))

/-- Targets in use that have slots. -/
def targetsUsed (s : State) : List Nat :=
  (List.range 72).filter (fun t => s.on F.FR_TARGET.EN t && decide (0 < s.rd F.FR_TARGET.SLOTS t))

/-- The last durable segment that the targets show. -/
def lastStored (s : State) : Option Seg :=
  ((targetsUsed s).filterMap (scanTarget s)).foldl (fun b g =>
    match b with
    | some (c : Seg) => if c.seq < g.seq then some g else b
    | none => some g) none

/-- The chain break record that capture record `c` calls for (R422): S is the highest sequence on the targets, or the
record's last durable one where they show none above it. -/
def writeBreak (s : State) (c : CaptureRec) : State :=
  let last : Nat × Nat × Nat := match lastStored s with
    | some g => if c.durable ≤ g.seq then (g.seq, g.lastTime, readDigest g) else (c.durable, 0, c.durableDigest)
    | none => (c.durable, 0, c.durableDigest)
  let info : BreakInfo :=
    ⟨if c.atSeal then 2 else 1, last.1, last.2.1, c.lastSealed,
      if s.on F.PT_TIME_CTRL.VALID 0 then s.clk.ptp else lifeSeconds s * 1000000000⟩
  let s := (s.wr F.FR_DURABLE.SEQ 0 last.1).wrWide F.FR_DIGEST.DIGEST 0 last.2.2
  let s := s.setFr (fun f => { f with nextSeq := last.1 + 1, sealedDigest := last.2.2, lastCap := 0, due := none })
  sealSeg s { newSeg s with brk := some info } 2

/-- Fresco runs: a chain break record that is due is written first, and waits for a target to be in use (R421). -/
def frescoRun (s : State) : State :=
  match s.fr.due with
  | none => frSettle (s.wr F.FR_STATUS.STATE 0 2)
  | some c => if (targetsUsed s).isEmpty then s else frSettle ((writeBreak s c).wr F.FR_STATUS.STATE 0 2)

/-- Fresco's comparison at a start (R421): the chain continues, or a chain break record is due. The Lath writes the
record to its flash (R418); it is then no record of a seal. -/
def frescoCompare (s : State) : State :=
  let c := s.fr.sram.orElse (fun _ => s.fr.flash)
  let s := s.setFr (fun f => { f with started := true })
  let s := match c with
    | none => s
    | some c =>
      let kept := some { c with atSeal := false }
      let s := s.setFr (fun f => { f with ringId := c.ringId, sram := kept, flash := kept })
      if c.durable = c.lastSealed ∧ c.atSeal = true then
        let s := (s.wr F.FR_DURABLE.SEQ 0 c.durable).wrWide F.FR_DIGEST.DIGEST 0 c.durableDigest
        s.setFr (fun f => { f with
          nextSeq := c.durable + 1, lastSealed := c.lastSealed, sealedDigest := c.sealedDigest })
      else s.setFr (fun f => { f with due := some c })
  if frState s = 1 then frescoRun s else s

/-- FR_CTRL.EN has been written: Fresco starts, once it has made its comparison. -/
def frescoEnEffect (s : State) (was : Bool) : State :=
  let now := s.on F.FR_CTRL.EN 0
  if now && !was then
    let s := s.wr F.FR_STATUS.STATE 0 1
    if s.fr.started then frescoRun s else s
  else if was && !now then s.wr F.FR_STATUS.STATE 0 0
  else s

/-- A target's EN has been set: NEXT and BYTES are those that the Lath holds for it, or 0 (R410, R411, R415). -/
def enableTarget (s : State) (t : Nat) : State :=
  let held := match s.fr.sram with
    | some c => c.targets.find? (fun (x : Nat × TargetRec) => x.1 == t)
    | none => none
  let at_ : Nat × Nat := match held with
    | some (_, r) => if { targetRec s t with next := r.next, bytes := r.bytes } = r then (r.next, r.bytes) else (0, 0)
    | none => (0, 0)
  let s := (s.wr F.FR_TARGET.NEXT t at_.1).wr F.FR_TARGET.BYTES t at_.2
  let s := takeWear ((s.wr F.FR_TARGET.STATE t 1).setRoce t ⟨0, 0, 0⟩) t
  let s := if frState s = 1 ∧ s.fr.started = true then frescoRun s else s
  placeAll (frSettle s)

/-- A target's EN has been cleared: its segments in flight wait for another target. -/
def disableTarget (s : State) (t : Nat) : State :=
  let s := s.setFr (fun f => { f with segs := f.segs.map (fun x =>
    if x.target = t ∧ x.stage ≠ .done then { x with stage := .waiting } else x) })
  placeAll (frSettle (s.wr F.FR_TARGET.STATE t 0))

/-- FR_TARGET of a target has been written: EN, or what its wear figure is made of (R408, R410). -/
def targetEnEffect (s : State) (t : Nat) (was : Bool) : State :=
  match was, s.on F.FR_TARGET.EN t with
  | false, true => enableTarget s t
  | true, false => disableTarget s t
  | true, true => takeWear s t
  | false, false => s

/-- RETIRE_W has been written: targets that have reached it retire (R410). -/
def retireAll (s : State) : State := (List.range 72).foldl retireWorn s

/-! ### The seal (R418 to R420) -/

/-- Hold-up is present (R419). -/
def holdup (s : State) : Bool := decide (2000 ≤ s.rd F.FR_CTRL.HOLDUP_US 0)

/-- The Lath writes the capture record to its flash (R418). -/
def recordToFlash (s : State) (atSeal : Bool) : State :=
  let c := captureNow s atSeal
  s.setFr (fun f => { f with sram := some c, flash := some c })

/-- The Lath executes a seal (R419), and writes the calendar to flash (R520). -/
def sealFresco (s : State) : State :=
  if frState s ≠ 2 ∧ frState s ≠ 4 then s
  else
    let s := { s with lt := { s.lt with calendar := lifeSeconds s } }
    let s := s.wr F.FR_STATUS.STATE 0 3
    let s := s.setFr (fun f => { f with sealAt := some s.clk.ns })
    if holdup s then recordToFlash (sealOpen s 1) true else s

/-- SEAL_FRESCO (R419). -/
def execSealFresco (s : State) : Host.Outcome State Fault Refusal := .next (sealFresco s)

/-- HOLDUP_END. The last sealed segment is durable, or HOLDUP_US has passed: the record is written again (R419). -/
def execHoldupEnd (s : State) : Host.Outcome State Fault Refusal :=
  match s.fr.sealAt with
  | some t =>
    if frState s = 3 ∧ holdup s = true then
      let s := if s.fr.segs.isEmpty then s else reachTime s (t + s.rd F.FR_CTRL.HOLDUP_US 0 * 1000)
      .next (recordToFlash s true)
    else .next s
  | none => .next s

/-- The seal is released (R420): Fresco resumes, and the record in SRAM is no longer that of a seal. -/
def releaseSeal (s : State) : State :=
  if frState s = 3 then
    frSettle ((s.setFr (fun f => { f with
      sealAt := none, sram := f.sram.map (fun c => { c with atSeal := false }) })).wr F.FR_STATUS.STATE 0 2)
  else s

/-- SEAL_RELEASE (R420). -/
def execSealRelease (s : State) : Host.Outcome State Fault Refusal := .next (releaseSeal s)

/-! ### Reading back (R423, R424) -/

/-- A segment on a target, by target and slot: a result code, and the segment when it is 0; `bad` targets fail the
read. -/
def segAt (s : State) (bad : List Nat) (t slot : Nat) : Nat × Option Seg :=
  if bad.contains t ∨ tgState s t = 2 then (2, none)
  else
    match Sparse.get none s.fr.stored (pairKey t slot) with
    | none => (1, none)
    | some g => if g.ringId = s.fr.ringId then (0, some g) else (4, none)

/-- Target and slot of a segment that the directory's span has passed: the slot whose header holds its sequence (R396,
R424). -/
def olderSlot (s : State) (seq : Nat) : Option (Nat × Nat) :=
  (s.fr.stored.find? (fun e => match e.2 with
    | some g => g.seq == seq && g.ringId == s.fr.ringId && s.on F.FR_TARGET.EN (unpair e.1).1
    | none => false)).map (fun e => unpair e.1)

/-- A segment by its sequence: in staging; on the target that the directory names; or, before the directory's span,
where the slots hold it (R423, R424). -/
def findSeg (s : State) (bad : List Nat) (seq : Nat) : Nat × Option Seg :=
  match s.fr.segs.find? (fun x => x.seg.seq == seq), Sparse.get none s.fr.directory (seq % 2 ^ 23) with
  | some x, _ => (0, some x.seg)
  | none, some e =>
    if e.seq = seq then segAt s bad e.target (e.slot - s.rd F.FR_TARGET.FIRST_SLOT e.target)
    else if seq < e.seq then
      match olderSlot s seq with
      | some (t, slot) => segAt s bad t slot
      | none => (1, none)
    else (1, none)
  | none, none => (1, none)

/-- FR_READ READ. The segment SEQ_FIRST goes, whole, to HOST_ADDR (R424). -/
def readSegment (s : State) (bad : List Nat) : State :=
  let r := findSeg s bad (s.rd F.FR_READ.SEQ_FIRST 0)
  let s := s.wr F.FR_READ.RESULT 0 r.1
  match r.2 with
  | some g => if busMaster s 0 then s.hostWrite 0 none (s.rd F.FR_READ.HOST_ADDR 0) (segBytes g) else s
  | none => s

/-- A segment's MAGIC, as its header reads (R398). -/
def magicGood (g : Seg) : Bool := slice (segHeader g) 0 4 == [0x46, 0x52, 0x53, 0x47]

/-- Check segments `seq` on, `n` of them: MAGIC, RING_ID, rising SEQ, and each digest against the next one's PREV. The
answer is a result code and the first sequence that fails (R424). -/
def verifyRange (s : State) (bad : List Nat) : Nat → Nat → Option Seg → Nat × Nat
  | 0, _, _ => (0, 0)
  | n + 1, seq, before =>
    match findSeg s bad seq with
    | (0, some g) =>
      if g.seq ≠ seq ∨ magicGood g = false then (4, seq)
      else
        match before with
        | some b =>
          if readDigest b ≠ g.prev then (3, b.seq)
          else verifyRange s bad n (seq + 1) (some g)
        | none => verifyRange s bad n (seq + 1) (some g)
    | (c, _) => (c, seq)

/-- FR_READ VERIFY (R424). -/
def verifySegments (s : State) (bad : List Nat) : State :=
  let first := s.rd F.FR_READ.SEQ_FIRST 0
  let r := verifyRange s bad (s.rd F.FR_READ.SEQ_LAST 0 + 1 - first) first none
  (s.wr F.FR_READ.RESULT 0 r.1).wr F.FR_READ.FAIL_SEQ 0 r.2

/-- The directory with an entry for a durable segment, unless it holds that of a newer one. -/
def rebuildEntry (s : State) (t slot : Nat) (g : Seg) : State :=
  match Sparse.get none s.fr.directory (g.seq % 2 ^ 23) with
  | some e => if g.seq ≤ e.seq then s else setDir s (dirEntry g (s.rd F.FR_TARGET.FIRST_SLOT t + slot) t true)
  | none => setDir s (dirEntry g (s.rd F.FR_TARGET.FIRST_SLOT t + slot) t true)

/-- DIRECTORY_REBUILD. The rebuild from the headers of the targets in use is done (R423). -/
def execDirectoryRebuild (s : State) : Host.Outcome State Fault Refusal :=
  let s := s.fr.stored.foldl (fun s e =>
    match e.2 with
    | some g =>
      if g.ringId = s.fr.ringId ∧ s.on F.FR_TARGET.EN (unpair e.1).1 = true then
        rebuildEntry s (unpair e.1).1 (unpair e.1).2 g
      else s
    | none => s) s
  .next (s.wr F.FR_STATUS.DIR_READY 0 1)

end Sys2Proof.Machine
end

