-- ==== Sys2Proof/Machine/Hbm.lean ====
section
/-! DEFINITION. The HBM controllers: requests, refresh, scrub, training, repair and retirement (R449 to R455, R458 to
R465). -/

namespace Sys2Proof.Machine

/-! ### Requests (R449 to R454) -/

/-- A write of bank `w.1` and row `w.2` completes, the oldest pending there; the in-order mode that it held ends
(R450). -/
def completeHbmWrite (s : State) (st : Nat) (w : Nat × Nat) : State :=
  let k := pairKey st w.1
  { s with hb := { s.hb with
    writes := Sparse.set [] s.hb.writes k (removeFirst (fun x => x.1 == w.2) (Sparse.get [] s.hb.writes k)) } }

/-- Every pending write of a stack completes. -/
def completeAllWrites (s : State) (st : Nat) : State :=
  { s with hb := { s.hb with writes := s.hb.writes.filter (fun e => (unpair e.1).1 != st) } }

/-- The refresh interval of a stack's banks: the standard's for its temperature, halved above 85 °C (R452). -/
def refreshInterval (s : State) (st : Nat) : Nat :=
  let t := stackCelsius s st
  if 85 < t then Config.refreshNs t / 2 else Config.refreshNs t

/-- When a bank's next refresh is due. -/
def refreshDue (s : State) (st bank : Nat) : Nat :=
  Sparse.get 0 s.hb.refreshed (pairKey st bank) + refreshInterval s st

/-- A refresh of a bank that is due is made before a request that waits for the bank (R452). -/
def takeRefresh (s : State) (st bank : Nat) : State :=
  { s with hb := { s.hb with
    refreshed := if refreshDue s st bank ≤ s.clk.ns then Sparse.set 0 s.hb.refreshed (pairKey st bank) s.clk.ns
      else s.hb.refreshed } }

/-- A request is served, after a refresh of its bank that is due; a write stays pending until it completes. -/
def serveRequest (s : State) (st : Nat) (r : HbmReq) : State :=
  let p := hbmPlace s st r.offset
  let s := takeRefresh s st (placeBank p)
  match r.op with
  | .read ecc =>
    let s := countBlocks (wakeStack s st) false st (r.offset / 32 * 32) 32 {}
    readOutcome (arriveRead s st r.offset) st r.port r.offset ecc
  | .write data =>
    let s := stackWrite s st (r.offset / 32 * 32) (leBytes 32 data.toNat) {}
    { s with hb := { s.hb with
      writes := Sparse.upd [] s.hb.writes (pairKey st (placeBank p)) (· ++ [(placeRow p, false)]) } }

/-- The requests of one cycle in the order in which the controller takes them: by port, Fresco's on stack A alone
(R449). -/
def cycleOrder (s : State) (st : Nat) (reqs : List HbmReq) : List HbmReq :=
  (List.range 5).flatMap (fun p =>
    if p = 1 ∧ st ≠ 0 then [] else reqs.filter (fun r => r.port == p && inStack s st r.offset))

/-- HBM_REQUEST. Writes complete, and the requests of one cycle are taken in port order; those to a held stack wait for
its release (R449 to R451, R454). -/
def execHbmRequest (stack : Nat) (done : List (Nat × Nat)) (reqs : List HbmReq) (s : State) :
    Host.Outcome State Fault Refusal :=
  if stack < 3 then
    let s := done.foldl (fun s w => completeHbmWrite s stack w) s
    let rs := cycleOrder s stack reqs
    if stackServes s stack then .next (rs.foldl (fun s r => serveRequest s stack r) s)
    else if hbState s stack = 4 then
      .next { s with hb := { s.hb with waiting := s.hb.waiting ++ rs.map (fun r => (stack, r)) } }
    else .next s
  else .next s

/-- A held stack is released: the requests that waited for it are served in order (R453, R454). -/
def releaseStack (s : State) (st : Nat) : State :=
  if hbState s st = 4 then
    let mine := s.hb.waiting.filter (fun w => w.1 == st)
    let s := { s with hb := { s.hb with
      waiting := s.hb.waiting.filter (fun w => w.1 != st)
      lastReq := Sparse.set 0 s.hb.lastReq st s.clk.ns
      scrubStart := Sparse.set 0 s.hb.scrubStart st s.clk.ns } }
    mine.foldl (fun s w => serveRequest s st w.2) (s.wr F.HB_STATUS.STATE st 2)
  else s

/-- REFRESH. A bank's refresh falls due and takes the bank (R452). -/
def execRefresh (stack bank : Nat) (s : State) : Host.Outcome State Fault Refusal :=
  if stack < 3 ∧ hbState s stack = 2 then
    let s := reachTime s (refreshDue s stack bank)
    .next { s with hb := { s.hb with refreshed := Sparse.set 0 s.hb.refreshed (pairKey stack bank) s.clk.ns } }
  else .next s

/-- IDLE_SELF_REFRESH. No request for IDLE_US: the stack enters self-refresh, unless a migration runs (R453,
R463). -/
def execIdleSelfRefresh (stack : Nat) (s : State) : Host.Outcome State Fault Refusal :=
  if stack < 3 ∧ hbState s stack = 2 ∧ s.on F.HB_CTRL.IDLE_SR_EN stack = true ∧
      Sparse.get none s.hb.migrating stack = none then
    .next ((completeAllWrites (reachTime s (Sparse.get 0 s.hb.lastReq stack + s.rd F.HB_CTRL.IDLE_US stack * 1000))
      stack).wr F.HB_STATUS.STATE stack 3)
  else .next s

/-- PATROL_SCRUB. The scrub reads a block; the block at offset 0 begins a pass (R455). -/
def execPatrolScrub (stack offset : Nat) (ecc : EccResult) (s : State) : Host.Outcome State Fault Refusal :=
  if stack < 3 ∧ stackServes s stack = true ∧ inStack s stack offset = true then
    let s := countBlocks (wakeStack s stack) false stack (offset / 32 * 32) 32 {}
    let s :=
      if offset / 32 = 0 then
        let since := Sparse.get 0 s.hb.scrubStart stack
        let s := if since + s.rd F.HB_CTRL.SCRUB_H stack * 3600000000000 < s.clk.ns then overrun s 0 else s
        { s with hb := { s.hb with scrubStart := Sparse.set 0 s.hb.scrubStart stack s.clk.ns } }
      else s
    .next (readOutcome s stack 4 offset ecc)
  else .next s

/-! ### Training (R458 to R462) -/

/-- A stack has been trained, fast or fully: counted in the life record (R460). -/
def countTraining (s : State) (st : Nat) (fast : Bool) : State :=
  (s.wr F.HB_STATUS.LAST_FAST st (flag fast)).updLife (fun l => { l with trainings := l.trainings + 1 })

/-- A trained stack becomes ACTIVE. -/
def stackActive (s : State) (st : Nat) : State :=
  let s := s.wr F.HB_STATUS.STATE st 2
  { s with hb := { s.hb with
      lastReq := Sparse.set 0 s.hb.lastReq st s.clk.ns
      scrubStart := Sparse.set 0 s.hb.scrubStart st s.clk.ns } }

/-- TRAINING_START. The firmware in steward core 3 of each die starts to train its stacks, all at once (R458, R461). -/
def execTrainingStart (s : State) : Host.Outcome State Fault Refusal :=
  if s.clk.diesOn && s.hb.firmware then
    .next ((List.range 3).foldl (fun s st =>
      if hbState s st = 1 then { s with hb := { s.hb with begun := Sparse.set false s.hb.begun st true } } else s) s)
  else .next s

/-- A stack is in training, which has started. -/
def training (s : State) (st : Nat) : Bool :=
  decide (st < 3) && hbState s st == 1 && Sparse.get false s.hb.begun st

/-- A stack's pseudo-channel `pc` is trained: its channel is not retired (R459, R465). -/
def pcTrained (s : State) (st pc : Nat) : Bool := decide (pc < 32) && retiredChannel s st != some (pc / 2)

/-- Apply lane repairs, and each trained pseudo-channel's delays and reference voltage. -/
def applyTrims (s : State) (st : Nat) (lanes : List Nat) (trims : List (Nat × PcTrim)) : State :=
  { s with hb := { s.hb with
    lanes := Sparse.set [] s.hb.lanes st lanes
    trims := trims.foldl (fun m t =>
      if pcTrained s st t.1 then Sparse.set PcTrim.zero m (pairKey st t.1) t.2 else m) s.hb.trims } }

/-- What the compare helpers count at the verification: errors by DQ bit of the stack (R458). -/
def verify (s : State) (st : Nat) (errors : List (Nat × Nat)) : State :=
  { s with hb := { s.hb with errors := Sparse.set [] s.hb.errors st (errors.filter (fun e => e.2 != 0)) } }

/-- The verification allows no error. -/
def verified (s : State) (st : Nat) : Bool := (Sparse.get [] s.hb.errors st).isEmpty

/-- The stored record that serves fast training of a stack (R460). -/
def fastRecord (s : State) (st identity : Nat) (tcase : Int) : Option TrainRec :=
  (Sparse.get none s.hb.records st).filter (fun r =>
    r.crcGood && r.identity == identity && decide (r.tcase - 30 ≤ tcase ∧ tcase ≤ r.tcase + 30))

/-- FAST_TRAINING. Where a record applies, its repairs and settings are reapplied; where they verify, the stack is
ACTIVE; else full training follows (R460). -/
def execFastTraining (stack : Nat) (identity : Nat) (tcase : Int) (errors : List (Nat × Nat)) (s : State) :
    Host.Outcome State Fault Refusal :=
  match fastRecord s stack identity tcase with
  | some r =>
    if training s stack then
      let s := verify (applyTrims (countTraining s stack true) stack r.lanes r.trims) stack errors
      .next (if verified s stack then stackActive s stack else s)
    else .next s
  | none => .next s

/-- Step 6 of full training: every soft repair of a stack becomes hard (R459). -/
def hardenRepairs (s : State) (st : Nat) : State :=
  { s with hb := { s.hb with repaired := s.hb.repaired.map (fun e =>
    (e.1, if (unpair e.1).1 = st then e.2.map (fun r => { r with hard := true }) else e.2)) } }

/-- FULL_TRAINING. The stack's lanes are repaired, its delays and reference voltages set and verified, and its soft
repairs made hard; the results become its training record. A stack that fails has FAILED (R459, R461). -/
def execFullTraining (stack : Nat) (run : TrainRun) (s : State) : Host.Outcome State Fault Refusal :=
  if training s stack then
    let s := verify (applyTrims (countTraining s stack false) stack run.lanes run.trims) stack run.errors
    if verified s stack then
      let s := hardenRepairs s stack
      let trims := run.trims.filter (fun t => pcTrained s stack t.1)
      let rec_ : TrainRec := ⟨run.identity, run.tcase, run.lanes, trims, true⟩
      let s := { s with hb := { s.hb with records := Sparse.set none s.hb.records stack (some rec_) } }
      .next (lifeEvent (stackActive s stack) 13 stack 0)
    else .next (lifeEvent (s.wr F.HB_STATUS.STATE stack 5) 14 stack 0)
  else .next s

/-- STROBE_TRACKING. 100 ms after its last recheck, the delay of a pseudo-channel's strobe moves by at most one step
(R462). -/
def execStrobeTracking (stack pc : Nat) (later : Option Bool) (s : State) : Host.Outcome State Fault Refusal :=
  if stack < 3 ∧ hbState s stack = 2 ∧ pcTrained s stack pc = true then
    let step : Int := match later with
      | some true => 1
      | some false => -1
      | none => 0
    let k := pairKey stack pc
    let s := reachTime s (Sparse.get 0 s.hb.tracked k + 100000000)
    .next { s with hb := { s.hb with
      tracked := Sparse.set 0 s.hb.tracked k s.clk.ns
      trims := Sparse.upd PcTrim.zero s.hb.trims k (fun t => { t with strobe := t.strobe + step }) } }
  else .next s

/-! ### Repair and retirement (R463 to R465) -/

/-- POST_PACKAGE_REPAIR. A candidate row is repaired, or counted where its bank's resource is used; of two
candidates of a bank the lower row comes first (R463). -/
def execPostPackageRepair (stack bank row : Nat) (s : State) : Host.Outcome State Fault Refusal :=
  if s.hb.candidates.contains (stack, bank, row) ∧ s.on F.HB_CTRL.AUTO_REPAIR stack = true ∧
      stackServes s stack = true ∧
      s.hb.candidates.all (fun c => !(c.1 == stack && c.2.1 == bank && decide (c.2.2 < row))) = true then
    let s := { s with hb := { s.hb with candidates := s.hb.candidates.filter (· != (stack, bank, row)) } }
    if (Sparse.get none s.hb.repaired (pairKey stack bank)).isSome then .next (s.count 899 none 1 {})
    else
      let s := { s with hb := { s.hb with
        repaired := Sparse.set none s.hb.repaired (pairKey stack bank) (some ⟨row, false⟩)
        rowErrs := Sparse.set [] s.hb.rowErrs (tripleKey stack bank row) [] } }
      let s := s.wr F.HB_STATUS.REPAIRS stack (satAdd 16 (s.rd F.HB_STATUS.REPAIRS stack) 1)
      let s := s.updLife (fun l => { l with hbmRepairs := Sparse.upd 0 l.hbmRepairs stack (· + 1) })
      .next (lifeEvent s 7 stack row)
  else .next s

/-- A pool with EN = 1 overlaps region `y` of a stack (R465). -/
def poolInRegion (s : State) (st y : Nat) : Bool :=
  (List.range 64).any (fun p =>
    s.on F.VT_POOL_GEOM.EN p && s.rd F.VT_POOL_GEOM.HOME p == st + 1 &&
      (let a := s.rd F.VT_POOL_GEOM.BASE p * 256
       let n := s.rd F.VT_POOL_GEOM.COUNT p * 4 ^ poolClass p * 256
       decide (a < (y + 1) * yieldSize ∧ y * yieldSize < a + n)))

/-- GO of HB_RETIRE (R465): the migration starts, unless a channel is retired or migrating, or a pool overlaps. -/
def beginMigration (s : State) (st : Nat) : State :=
  let y := s.rd F.HB_RETIRE.YIELD st
  if s.rd F.HB_STATUS.RETIRED st ≠ 0 ∨ s.on F.HB_RETIRE.BUSY st = true ∨ (st < 2 ∧ poolInRegion s st y = true) then s
  else
    let m : Migration := ⟨s.rd F.HB_RETIRE.CHANNEL st, y⟩
    ({ s with hb := { s.hb with migrating := Sparse.set none s.hb.migrating st (some m) } }.wr
      F.HB_RETIRE.BUSY st 1).wr F.HB_RETIRE.PROGRESS st 0

/-- Every granule has moved: the channel is retired (R464, R465). -/
def endMigration (s : State) (st : Nat) (m : Migration) : State :=
  let s := { s with hb := { s.hb with
    migrating := Sparse.set none s.hb.migrating st none
    yielded := Sparse.set none s.hb.yielded st (some m.yieldTo) } }
  let s := (s.wr F.HB_RETIRE.BUSY st 0).wr F.HB_STATUS.RETIRED st (2 ^ m.channel)
  let s := s.updLife (fun l => { l with hbmRetired := Sparse.set 0 l.hbmRetired st (m.channel + 1) })
  lifeEvent s 8 st m.channel

/-- MIGRATION_COMPLETE. The next `granules` granules have moved, each to its new place; with the last the migration ends
(R464, R465). -/
def execMigrationComplete (stack granules : Nat) (s : State) : Host.Outcome State Fault Refusal :=
  match Sparse.get none s.hb.migrating stack with
  | none => .next s
  | some m =>
    let n := min allGranules (s.rd F.HB_RETIRE.PROGRESS stack + granules)
    let s := s.wr F.HB_RETIRE.PROGRESS stack n
    .next (if n = allGranules then endMigration s stack m else s)

end Sys2Proof.Machine
end

