-- ==== Sys2Proof/Machine/Gcm.lean ====
section
/-! DEFINITION. GCM-AES-256, the cipher under the suites that R476 names: the block cipher of FIPS 197 and the mode of
NIST SP 800-38D, on byte strings (log entry 168). -/

namespace Sys2Proof.Machine

/-! ### Bytes as elements of GF(2⁸) -/

/-- Twice an element. -/
def gfTwice (a : Nat) : Nat := if 128 ≤ a then (2 * a) ^^^ 0x11B else 2 * a

/-- Rows of the substitution table, the first entry of each on top. -/
def subRows : List Nat := [
  0x637c777bf26b6fc53001672bfed7ab76, 0xca82c97dfa5947f0add4a2af9ca472c0, 0xb7fd9326363ff7cc34a5e5f171d83115,
  0x04c723c31896059a071280e2eb27b275, 0x09832c1a1b6e5aa0523bd6b329e32f84, 0x53d100ed20fcb15b6acbbe394a4c58cf,
  0xd0efaafb434d338545f9027f503c9fa8, 0x51a3408f929d38f5bcb6da2110fff3d2, 0xcd0c13ec5f974417c4a77e3d645d1973,
  0x60814fdc222a908846eeb814de5e0bdb, 0xe0323a0a4906245cc2d3ac629195e479, 0xe7c8376d8dd54ea96c56f4ea657aae08,
  0xba78252e1ca6b4c6e8dd741f4bbd8b8a, 0x703eb5664803f60e613557b986c11d9e, 0xe1f8981169d98e949b1e87e9ce5528df,
  0x8ca1890dbfe6426841992d0fb054bb16]

/-- The substitution of a byte. -/
def subByte (a : Nat) : Nat := subRows.getD (a / 16) 0 / 2 ^ (8 * (15 - a % 16)) % 256

/-! ### The block cipher -/

/-- Exclusive or, element by element. -/
def xorList (a b : List Nat) : List Nat := List.zipWith (· ^^^ ·) a b

/-- The key schedule's next word from the eight before it, newest first; `i` is its number. -/
def nextKeyWord (i : Nat) (ws : List (List Nat)) : List Nat :=
  let w := ws.getD 0 []
  let t :=
    if i % 8 = 0 then
      xorList ((w.drop 1 ++ w.take 1).map subByte) [(List.range (i / 8 - 1)).foldl (fun r _ => gfTwice r) 1, 0, 0, 0]
    else if i % 8 = 4 then w.map subByte
    else w
  xorList t (ws.getD 7 [])

/-- The words of the schedule, newest first: `n` more after the key's eight. -/
def keyWords (key : List Nat) : Nat → List (List Nat)
  | 0 => ((List.range 8).map (fun i => (key.drop (4 * i)).take 4)).reverse
  | n + 1 =>
    let ws := keyWords key n
    nextKeyWord (8 + n) ws :: ws

/-- The 15 round keys of a 32-byte key. -/
def roundKeys (key : List Nat) : List (List Nat) :=
  let bytes := (keyWords key 52).reverse.flatten
  (List.range 15).map (fun r => (bytes.drop (16 * r)).take 16)

/-- Rows of a block rotate: row `r` by `r` columns. -/
def shiftRows (b : List Nat) : List Nat := (List.range 16).map (fun i => b.getD ((i + 4 * (i % 4)) % 16) 0)

/-- Columns of a block are multiplied by the circulant of 2, 3, 1, 1. -/
def mixColumns (b : List Nat) : List Nat :=
  (List.range 16).map (fun i =>
    let at_ (k : Nat) : Nat := b.getD (i / 4 * 4 + (i + k) % 4) 0
    gfTwice (at_ 0) ^^^ gfTwice (at_ 1) ^^^ at_ 1 ^^^ at_ 2 ^^^ at_ 3)

/-- A block under round keys. -/
def aesBlock (keys : List (List Nat)) (block : List Nat) : List Nat :=
  match keys with
  | [] => block
  | k :: ks =>
    let mid := (ks.take 13).foldl (fun b k => xorList (mixColumns (shiftRows (b.map subByte))) k) (xorList block k)
    xorList (shiftRows (mid.map subByte)) (ks.getD 13 [])

/-! ### The mode -/

/-- Half of an element of GF(2¹²⁸), whose first bit is its most significant one. -/
def ghHalf (v : Nat) : Nat := if v % 2 = 1 then (v / 2) ^^^ (0xE1 * 2 ^ 120) else v / 2

/-- Product of two elements. -/
def ghTimes (x y : Nat) : Nat :=
  ((List.range 128).foldl (fun (zv : Nat × Nat) i =>
    (if bitAt x (127 - i) then zv.1 ^^^ zv.2 else zv.1, ghHalf zv.2)) (0, y)).1

/-- Bytes in blocks of 16, the last filled with zeros, as numbers with the first byte on top. -/
def ghBlocks (bs : List Nat) : List Nat :=
  (List.range ((bs.length + 15) / 16)).map (fun i =>
    (List.range 16).foldl (fun a j => a * 256 + bs.getD (16 * i + j) 0) 0)

/-- The hash of associated data and text under the hash key. -/
def ghash (h : Nat) (aad text : List Nat) : Nat :=
  (ghBlocks aad ++ ghBlocks text ++ [aad.length * 8 * 2 ^ 64 + text.length * 8]).foldl (fun y b => ghTimes (y ^^^ b) h) 0

/-- The `n` bytes of a number, most significant first. -/
def topBytes (n v : Nat) : List Nat := (List.range n).map (fun i => v / 256 ^ (n - 1 - i) % 256)

/-- A text under the key stream of a 96-bit initialisation vector, whose counter begins at 2. -/
def ctrText (keys : List (List Nat)) (iv : Nat) (text : List Nat) : List Nat :=
  (List.range ((text.length + 15) / 16)).flatMap (fun i =>
    xorList ((text.drop (16 * i)).take 16) (aesBlock keys (topBytes 16 (iv * 2 ^ 32 + 2 + i))))

/-- The 16 bytes that authenticate associated data and ciphertext. -/
def gcmTag (keys : List (List Nat)) (iv : Nat) (aad text : List Nat) : List Nat :=
  let h := (ghBlocks (aesBlock keys (List.replicate 16 0))).getD 0 0
  xorList (topBytes 16 (ghash h aad text)) (aesBlock keys (topBytes 16 (iv * 2 ^ 32 + 1)))

end Sys2Proof.Machine
end

