-- ==== Sys2Proof/Machine/Slices.lean ====
section
/-! DEFINITION. Ingress admission, dispatch, the slices and the reorder unit (R66 to R80, R86, R98 to R107,
R192). -/

namespace Sys2Proof.Machine

/-! ### Admission -/

/-- Does a first-look rule match a frame (R68)? -/
def ruleMatches (s : State) (src r : Nat) (data : List Byte) : Bool :=
  let i := src * 8 + r
  let off := s.rd F.HN_ADM_RULE.OFFSET i
  let w := s.rd F.HN_ADM_RULE.WIDTH i
  let mask := s.rd F.HN_ADM_RULE.MASK i
  let field := (List.range w).foldl (fun a k =>
    let b := (data.getD ((off + k) / 2) 0).toNat
    a * 16 + (if (off + k) % 2 = 0 then b / 16 else b % 16)) 0
  s.on F.HN_ADM_RULE.EN i && decide (off + w ≤ 2 * data.length) &&
    (field &&& mask) == (s.rd F.HN_ADM_RULE.VALUE i &&& mask)

/-- A frame's admission class: the first enabled rule that matches, else the source's DEFAULT (R68). -/
def admClass (s : State) (src : Nat) (data : List Byte) : Nat :=
  match (List.range 8).find? (fun r => ruleMatches s src r data) with
  | some r => s.rd F.HN_ADM_RULE.CLASS (src * 8 + r)
  | none => s.rd F.HN_ADM_SRC.DEFAULT src

/-- Dispatch backlog in bytes (R70). -/
def dispatchBacklog (s : State) : Nat := sumOf (s.hn.dispatchBuf.map (fun f => f.2.2.data.length))

/-- Charge `n` bytes to the remaining quotas of classes 0, 1 and 2 in turn (R73). -/
def chargeLower (a : AdmSt) (n : Nat) : AdmSt :=
  ([0, 1, 2].foldl (fun (x : AdmSt × Nat) c =>
    let room := x.1.quota.getD c 0 - x.1.used.getD c 0
    let k := min room x.2
    ({ x.1 with used := modifyAt (· + k) x.1.used c }, x.2 - k)) (a, n)).1

/-- May a frame of a class be admitted in Shedding, and what is charged (R73)? -/
def admitShedding (a : AdmSt) (cls n : Nat) : Option AdmSt :=
  if a.used.getD cls 0 < a.quota.getD cls 0 then
    some { a with used := modifyAt (· + n) a.used cls }
  else if cls = 3 ∧ (a.used.getD 0 0 < a.quota.getD 0 0 ∨ a.used.getD 1 0 < a.quota.getD 1 0 ∨
      a.used.getD 2 0 < a.quota.getD 2 0) then some (chargeLower a n)
  else none

/-- The dispatch buffer's size (R70). -/
def dispatchBufBytes : Nat := 4194304

/-- INGRESS_ADMISSION. The next frame of a source is classed and admitted, shed, or discarded for want of room
(R68 to R73). -/
def execIngressAdmission (source : Nat) (s : State) : Host.Outcome State Fault Refusal :=
  match Sparse.get [] s.hn.rxQueue source with
  | [] => .next s
  | p :: ps =>
    let cls := admClass s source p.data
    let n := p.data.length
    let a := { s.hn.adm with arrived := modifyAt (· + n) s.hn.adm.arrived cls }
    let s := { s with hn := { s.hn with rxQueue := Sparse.set [] s.hn.rxQueue source ps, adm := a } }
    let obj := source * 4 + cls
    let adm : Option AdmSt := if a.shedding then admitShedding a cls n else some a
    match adm with
    | none => .next (s.count 65 (some obj) 1 {})
    | some a' =>
      if dispatchBufBytes < dispatchBacklog s + n then .next (s.count 64 (some obj) 1 {})
      else
        let p := { p with ticket := tkPut p.ticket 2 5 2 cls }
        .next { s with hn := { s.hn with
          adm := { a' with peak := max a'.peak (dispatchBacklog s + n) }
          dispatchBuf := s.hn.dispatchBuf ++ [(source, cls, p)] } }

/-- Quotas of a Shedding epoch from the budget and the arrivals (R72). -/
def admQuotas (b : Nat) (a : List Nat) : List Nat :=
  let q3 := min (a.getD 3 0) b
  let q2 := min (a.getD 2 0) (b - q3)
  let q1 := min (a.getD 1 0) (b - q3 - q2)
  let q0 := min (a.getD 0 0) (b - q3 - q2 - q1)
  [q0, q1, q2, q3]

/-- What an epoch's end makes of admission (R71, R72). -/
def admEpoch (a : AdmSt) (backlog shedOn shedOff : Nat) : AdmSt :=
  let calm := if backlog ≤ shedOff then a.calm + 1 else 0
  let shedding := if a.shedding then decide (calm < 16) else decide (shedOn ≤ max a.peak backlog)
  let b := a.taken - (backlog - shedOff) / 16
  { epoch := a.epoch + 1
    shedding := shedding
    peak := backlog
    calm := if a.shedding then calm else 0
    taken := 0
    arrived := [0, 0, 0, 0]
    quota := if shedding then admQuotas b a.arrived else [0, 0, 0, 0]
    used := [0, 0, 0, 0] }

/-- ADMISSION_EPOCH_END. A 1,024 ns epoch ends (R71, R72). -/
def execAdmissionEpochEnd (s : State) : Host.Outcome State Fault Refusal :=
  if !s.clk.diesOn then .next s
  else
    let s := reachTime s ((s.hn.adm.epoch + 1) * 1024)
    let a := admEpoch s.hn.adm (dispatchBacklog s) (s.rd F.HN_ADM_CTRL.SHED_ON 0 * 1024)
      (s.rd F.HN_ADM_CTRL.SHED_OFF 0 * 1024)
    .next (State.wr { s with hn := { s.hn with adm := a } } F.HN_ADM_CTRL.SHEDDING 0 (flag a.shedding))

/-! ### Dispatch -/

/-- The slice of a position of the active list. -/
def positionSlice (s : State) (p : Nat) : Option Nat := s.hn.active.getD p none

/-- A slice's input queue has room (R77). -/
def sliceRoom (s : State) (n : Nat) : Bool := decide ((s.slice n).queue.length < 64)

/-- The positions from a pointer on, one turn, that hold a slice (R76). -/
def turnPositions (s : State) (ptr : Nat) : List Nat :=
  ((List.range 16).map (fun i => (ptr + i) % 16)).filter (fun p => (positionSlice s p).isSome)

/-- The slices in SHADOW that take copies (R508). -/
def shadowSlices (s : State) : List Nat := (List.range 17).filter (fun n => s.rd F.SY_SVC_UNIT.STATE n == 6)

/-- The frame a dispatcher takes next for a source or destination, and the state without it. -/
def takeFrame (s : State) (side : Side) (obj : Nat) : Option (Pkt × State) :=
  match side with
  | .ingress =>
    match splitAtFirst (fun (f : Nat × Nat × Pkt) => f.1 == obj) s.hn.dispatchBuf with
    | none => none
    | some (pre, f, post) => some (f.2.2, { s with hn := { s.hn with
        dispatchBuf := pre ++ post
        adm := { s.hn.adm with taken := s.hn.adm.taken + f.2.2.data.length } } })
  | .egress =>
    match splitAtFirst (fun (f : Nat × Pkt) => f.1 == obj) s.hn.egressWait with
    | none => none
    | some (pre, f, post) => some (f.2, { s with hn := { s.hn with egressWait := pre ++ post } })

/-- The ticket with the dispatcher's fields written (R80, R96). -/
def stampTicket (tk : BitVec 1024) (side : Side) (obj seq slot gen : Nat) : BitVec 1024 :=
  match side with
  | .ingress => tkPut (tkPut (tkPut tk 4 0 16 obj) 6 0 16 seq) 8 0 32 (stamp slot gen)
  | .egress => tkPut (tkPut tk 40 0 32 (stamp slot gen)) 44 0 16 seq

/-- A new job for a dispatched packet. -/
def newJob (s : State) (side : Side) (obj seq : Nat) (p : Pkt) : Job :=
  let slot := activeSlot s
  let gen := s.rd F.SY_COAT_STATUS.GENERATION 0
  { uid := s.hn.nextUid, side := side, obj := obj, seq := seq, slot := slot, gen := gen
    pkt := Pkt.withLength { p with ticket := stampTicket p.ticket side obj seq slot gen }
    record := none, startLen := p.data.length, takenAt := 0, watchdogUs := 0, pmats := 0, mtrs := 0, mirrs := 0
    handler := false, faultCode := 0, copies := [], shadow := none, twinShadow := none }

/-- Put a packet in a slice's input queue. -/
def enqueueSlice (s : State) (n : Nat) (j : Job) : State :=
  let sl := s.slice n
  s.setSlice n { sl with queue := sl.queue ++ [j] }

/-- Give one packet in SHADOW_SAMPLE to a slice in SHADOW as well (R508). -/
def shadowCopy (s : State) (n : Nat) (j : Job) : State :=
  match shadowSlices s with
  | [] => enqueueSlice s n j
  | m :: _ =>
    if s.hn.shadowCount + 1 < s.rd F.SY_SVC_CTRL.SHADOW_SAMPLE 0 then
      enqueueSlice { s with hn := { s.hn with shadowCount := s.hn.shadowCount + 1 } } n j
    else if sliceRoom s m then
      let id := s.hn.nextShadow
      let uid := s.hn.nextUid
      let s := { s with hn := { s.hn with shadowCount := 0, nextShadow := id + 1, nextUid := uid + 1 } }
      let s := enqueueSlice s n { j with twinShadow := some id }
      enqueueSlice s m { j with shadow := some id, uid := uid }
    else enqueueSlice { s with hn := { s.hn with shadowCount := 0 } } n j

/-- Give a taken frame to the slice at position `p`, after `skips` full slices (R76, R77, R80). -/
def dispatchTo (s : State) (side : Side) (obj : Nat) (pkt : Pkt) (p n skips : Nat) : State :=
  let o := s.obj side obj
  let s := if skips = 0 then s else s.count 66 (some (sideObj side obj)) skips pkt.attr
  let j := newJob s side obj o.nextSeq pkt
  let s := s.setObj side obj { o with
    pointer := (p + 1) % 16
    nextSeq := (o.nextSeq + 1) % 65536
    inflight := o.inflight + 1 }
  shadowCopy { s with hn := { s.hn with nextUid := s.hn.nextUid + 1 } } n j

/-- A coat is active (R108: generation 1 or more). -/
def coatIsActive (s : State) : Bool := s.rd F.SY_COAT_STATUS.GENERATION 0 != 0

/-- A dispatcher takes the next frame of a source or destination and gives it to the slice at the pointer; it
waits while every queue is full (R76, R77). -/
def dispatchNext (s : State) (side : Side) (obj : Nat) : State :=
  match takeFrame s side obj with
  | none => s
  | some (pkt, s') =>
    let room (p : Nat) : Bool := match positionSlice s p with
      | some n => sliceRoom s n
      | none => false
    match splitAtFirst room (turnPositions s (s.obj side obj).pointer) with
    | none => s
    | some (skipped, p, _) =>
      match positionSlice s p with
      | none => s
      | some n => dispatchTo s' side obj pkt p n skipped.length

/-- DISPATCH. The next packet of a source or destination goes to the slice at its pointer (R76 to R80). Egress
discards a packet for a port or client that is not in service (R475). -/
def execDispatch (side : Side) (obj : Nat) (s : State) : Host.Outcome State Fault Refusal :=
  if side = .egress ∧ obj < 160 ∧ objServes s obj = false then
    match takeFrame s side obj with
    | none => .next s
    | some (pkt, s') => .next (s'.count 961 (some obj) 1 pkt.attr)
  else if !coatIsActive s || decide (s.rd F.HN_DISP_CTRL.INFLIGHT_MAX 0 ≤ (s.obj side obj).inflight) then .next s
  else .next (dispatchNext s side obj)

/-! ### The slice -/

/-- PARSE_WALK. The slice's parse graph engine walks the next packet of its queue (R188, R192). -/
def execParseWalk (slice : Nat) (s : State) : Host.Outcome State Fault Refusal :=
  let sl := s.slice slice
  match splitAtFirst (fun (j : Job) => j.record.isNone) sl.queue with
  | none => .next s
  | some (pre, j, post) =>
    let w := parseGraph (coatOf s j.slot) j.side j.obj j.pkt.data
    let s := s.setSlice slice { sl with queue := pre ++ { j with record := some (parseRecord w) } :: post }
    .next (s.count 192 (some (slice * 4 + w.status)) 1 j.pkt.attr)

/-- The free thread that R79 chooses: cores in rotation, the lowest-numbered free thread of a core. -/
def freeThread (s : State) (slice : Nat) : Option (Nat × Nat) :=
  let sl := s.slice slice
  let cores := (List.range 24).map (fun i => (sl.rotate + i) % 24)
  let free (c t : Nat) : Bool := (s.thread (.packet slice c t)).job.isNone
  (cores.find? (fun c => (List.range 8).any (free c))).bind (fun c =>
    ((List.range 8).find? (free c)).map (fun t => (c, t)))

/-- A thread starts on a packet at a word, with the start state of R86. -/
def startThread (s : State) (slice : Nat) (ct : Nat × Nat) (j : Job) (entry g1 : Nat) : State :=
  let t : Tid := .packet slice ct.1 ct.2
  let j := { j with takenAt := s.clk.ns, watchdogUs := s.rd F.HN_DISP_CTRL.WATCHDOG_US 0 }
  let th := { Thread.init with job := some j, pc := entry % 131072 }
  let th := (th.setReg 1 (BitVec.ofNat 64 g1)).setReg 2 (BitVec.ofNat 64 j.obj)
  let s := (s.setThread t th).setLmem (coreOf t) (lmemBase t) (slice64 j)
  let sl := s.slice slice
  s.setSlice slice { sl with rotate := (ct.1 + 1) % 24 }
where
  /-- The parse record that the thread's local memory gets. -/
  slice64 (j : Job) : List Byte := (j.record.getD []).take 64

/-- THREAD_TAKE_PACKET. A free thread takes the walked packet at the head of the queue (R79, R86, R192). -/
def execThreadTakePacket (slice : Nat) (s : State) : Host.Outcome State Fault Refusal :=
  let sl := s.slice slice
  match sl.handlers, sl.queue, freeThread s slice with
  | [], j :: js, some ct =>
    if j.record.isNone then .next s
    else
      let s := s.setSlice slice { sl with queue := js }
      let c := coatOf s j.slot
      let entry := match j.side with
        | .ingress => c.ingressEntry
        | .egress => c.egressEntry
      .next (startThread s slice ct { j with startLen := j.pkt.data.length } entry j.pkt.data.length)
  | _, _, _ => .next s

/-- WATCHDOG_EXPIRY. A packet thread's period has passed since it took its packet: fault 4, at the instruction
it is blocked in, as it was fetched, or at the one it would issue next (R98, R99). -/
def execWatchdogExpiry (t : Tid) (s : State) : Host.Outcome State Fault Refusal :=
  let th := s.thread t
  match t, th.job with
  | .packet .., some j =>
    let s := reachTime s (j.takenAt + j.watchdogUs * 1000)
    let at_ := if th.blocked = .none then (th.pc, (fetchWord s t).1) else th.instr
    .next (threadFault s t 4 at_.1 at_.2 0)
  | _, _ => .next s

/-- FAULT_HANDLER_START. The packet that faulted first takes a free thread at the fault-handler entry, with a
fresh watchdog (R100). -/
def execFaultHandlerStart (slice : Nat) (s : State) : Host.Outcome State Fault Refusal :=
  let sl := s.slice slice
  match sl.handlers, freeThread s slice with
  | j :: js, some ct =>
    let s := s.setSlice slice { sl with handlers := js }
    .next (startThread s slice ct j (coatOf s j.slot).faultEntry j.faultCode)
  | _, _ => .next s

/-! ### The reorder unit -/

/-- Where a released packet and its copies go (R106, R107, R158). -/
def releaseTo (s : State) (side : Side) (obj : Nat) (ps : List Pkt) : State :=
  match side with
  | .ingress => { s with hn := { s.hn with dieLink := s.hn.dieLink ++ ps } }
  | .egress => { s with hn := { s.hn with macQueue := Sparse.upd [] s.hn.macQueue obj (· ++ ps) } }

/-- REORDER_RELEASE. The retired packet next in sequence is released, then its copies in the order made; a drop
releases its place (R106, R107). -/
def execReorderRelease (side : Side) (obj : Nat) (s : State) : Host.Outcome State Fault Refusal :=
  let o := s.obj side obj
  match splitAtFirst (fun (r : Retired) => r.seq == o.nextRelease) o.retired with
  | none => .next s
  | some (pre, r, post) =>
    let s := s.setObj side obj { o with
      retired := pre ++ post
      nextRelease := (o.nextRelease + 1) % 65536
      inflight := o.inflight - 1 }
    .next (releaseTo s side obj (r.out.toList ++ r.copies))

end Sys2Proof.Machine
end

