-- ==== Sys2Proof/Machine/Ports.lean ====
section
/-! DEFINITION. Line ports: receiving and sending frames, MACsec as IEEE 802.1AE frames it, timestamps and the
time base, PPS, calendars of FlexE groups, and receive adaptation (R466 to R490). -/

namespace Sys2Proof.Machine

/-! ### Time of a frame (R480, R483) -/

/-- The time base with a correction in 1/16 ns, in whole ns. -/
def timeAdj (s : State) (adj : Int) : Nat :=
  let sixteenths : Int := ((s.clk.ptp * 16 + s.clk.ptpFrac * 16 / 100000000000 : Nat) : Int)
  unsigned 63 ((sixteenths + adj) / 16)

/-- A time with bit 63 set while the time base is not valid. -/
def withInvalid (s : State) (t : Nat) : Nat := t + (if s.on F.PT_TIME_CTRL.VALID 0 then 0 else 2 ^ 63)

/-- The port whose corrections a source or destination takes: its own, or the lowest member of a client's group. -/
def timePort (s : State) (o : Nat) : Nat :=
  if o < 32 then o
  else match clientGroup s (o - 32) with
    | some g => (groupPorts s g).headD 0
    | none => 0

/-- The moment now, as a received or a transmitted frame carries it. -/
def rxStamp (s : State) (o : Nat) : Nat := timeAdj s (signed 16 (s.rd F.PT_PORT.RX_ADJ (timePort s o)))
def txStamp (s : State) (o : Nat) : Nat := timeAdj s (signed 16 (s.rd F.PT_PORT.TX_ADJ (timePort s o)))

/-! ### Security associations (R477) -/

def saAt (s : State) (i : Nat) : BitVec 512 := Sparse.get 0 s.pt.sas i

def State.setSa (s : State) (i : Nat) (v : BitVec 512) : State :=
  { s with pt := { s.pt with sas := Sparse.set 0 s.pt.sas i v } }

def saEn (d : BitVec 512) : Bool := bitAt d.toNat 0
def saPn (d : BitVec 512) : Nat := bitsOf d.toNat 64 64
def saWithPn (d : BitVec 512) (pn : Nat) : BitVec 512 := BitVec.ofNat 512 (putBits d.toNat 64 64 pn)

/-- The port of an SA index. -/
def saPort (i : Nat) : Nat := if i < 128 then i / 4 else (i - 128) / 32

/-- Width of packet numbers on a port. -/
def pnBits (s : State) (port : Nat) : Nat := if s.on F.PT_MACSEC.XPN port then 64 else 32

/-- What a WRITE stores. -/
def clampSa (s : State) (i v : Nat) : Nat :=
  let pn := clampRange 1 (2 ^ pnBits s (saPort i) - 1) (bitsOf v 64 64)
  bitsOf v 0 1 + pn * 2 ^ 64 + (v >>> 128) % 2 ^ 384 * 2 ^ 128

/-- READ of the window: the descriptor with KEY reading 0. -/
def showSa (s : State) (i : Nat) : State := s.wrWide F.PT_SA_WIN.DATA 0 ((saAt s i).toNat % 2 ^ 256)

/-- WRITE of the window: clamp, store, copy back. A new SA has given no warning. -/
def commitSa (s : State) (i : Nat) : State :=
  let d := clampSa s i (s.rdWide F.PT_SA_WIN.DATA 0)
  let s := s.setSa i (BitVec.ofNat 512 d)
  showSa { s with pt := { s.pt with warned := Sparse.set false s.pt.warned i false } } i

/-- A frame counted for an SA, or for its port, with the outcome of the standard (R478). -/
def countSec (s : State) (key : Nat) (o : SecOutcome) : State :=
  { s with pt := { s.pt with sec := Sparse.upd 0 s.pt.sec (pairKey key o.ctorIdx) (· + 1) } }

/-! ### MACsec reception (R478, IEEE 802.1AE) -/

/-- EtherType of a frame. -/
def etherType (data : List Byte) : Nat := beNat (slice data 12 2)

/-- A frame of the uncontrolled port (R476). -/
def uncontrolled (s : State) (port : Nat) (data : List Byte) : Bool :=
  etherType data == 0x888E || (s.on F.PT_MACSEC.BYPASS_EN port && etherType data == s.rd F.PT_MACSEC.BYPASS_ET port)

/-- The TCI and AN byte of a SecTAG, and its bits. -/
def tciByte (data : List Byte) : Nat := leAt data 14 1
def tciSc (data : List Byte) : Bool := bitAt (tciByte data) 5

/-- Bytes of the SecTAG. -/
def secTagLen (data : List Byte) : Nat := if tciSc data then 16 else 8

/-- Its short length: octets of secure data, or 0 for 48 and more. -/
def secShort (data : List Byte) : Nat := leAt data 15 1

/-- Octets of secure data; what follows the ICV is padding. -/
def secureLen (data : List Byte) : Nat :=
  if secShort data = 0 then data.length - 28 - secTagLen data else secShort data

/-- A SecTAG that the standard calls valid: version 0, no SCI beside ES or SCB, a short length that agrees with the frame,
and a packet number other than 0, whose lower half alone is carried with XPN. -/
def secTagGood (xpn : Bool) (data : List Byte) : Bool :=
  let t := tciByte data
  let n := secShort data
  !bitAt t 7 && !(bitAt t 5 && (bitAt t 6 || bitAt t 4)) && decide (n < 48) &&
    decide (28 + secTagLen data + (if n = 0 then 48 else n) ≤ data.length) && (xpn || beNat (slice data 16 4) != 0)

/-- The SCI of a frame: as its SecTAG carries it, else that of an end station, made of its source address; none
where the point-to-point SC is meant. -/
def frameSci (data : List Byte) : Option Nat :=
  let t := tciByte data
  if bitAt t 5 then some (beNat (slice data 20 8))
  else if bitAt t 6 then some (beNat (slice data 6 6) * 65536 + (if bitAt t 4 then 0 else 1))
  else none

/-- The receive SC of a frame: the enabled one with its SCI; without one, the only enabled SC. -/
def findRxSc (s : State) (port : Nat) (data : List Byte) : Option Nat :=
  let open_ := (List.range 8).filter (fun r => s.on F.PT_RXSC.EN (8 * port + r))
  match frameSci data with
  | some sci => open_.find? (fun r => s.rd F.PT_RXSC.SCI (8 * port + r) == sci)
  | none => if open_.length = 1 then open_.head? else none

/-- The packet number of a received frame: with XPN, its upper half comes from the lowest acceptable one. -/
def recoverPn (xpn : Bool) (lowest low : Nat) : Nat :=
  if xpn then
    let hi := lowest / 2 ^ 32 + (if bitAt lowest 31 && decide (low < 2 ^ 31) then 1 else 0)
    hi % 2 ^ 32 * 2 ^ 32 + low
  else low

/-- The frame with its SecTAG and ICV taken off, and `user` as its user data. -/
def untagged (data user : List Byte) : List Byte := data.take 12 ++ user

/-- User data of a tagged frame as it stands, neither checked nor decrypted. -/
def rawUser (data : List Byte) : List Byte := (data.drop (12 + secTagLen data)).take (secureLen data)

/-! ### The cipher suites (R476, IEEE 802.1AE) -/

/-- Bytes as numbers. -/
def byteNats (bs : List Byte) : List Nat := bs.map BitVec.toNat

/-- The round keys of an SA: KEY is read as a number, its first octet on top, as are SALT, SSCI and the SCIs (log entry
169). -/
def saKeys (d : BitVec 512) : List (List Nat) := roundKeys (topBytes 32 (bitsOf d.toNat 256 256))

/-- The initialisation vector of packet number `pn`: the SCI with it, or, with XPN, SSCI with it, masked with SALT. -/
def secIv (xpn : Bool) (d : BitVec 512) (sci pn : Nat) : Nat :=
  if xpn then (bitsOf d.toNat 128 32 * 2 ^ 64 + pn) ^^^ bitsOf d.toNat 160 96 else sci * 2 ^ 32 + pn

/-- Octets at the front of a port's encrypted user data that stay clear; the XPN suites have no such offset. -/
def confOffset (s : State) (port : Nat) : Nat :=
  if s.on F.PT_MACSEC.XPN port then 0
  else match s.rd F.PT_MACSEC.OFFSET port with
    | 1 => 30
    | 2 => 50
    | _ => 0

/-- Octets of `n` of user data that a suite authenticates and does not encrypt. -/
def clearLen (s : State) (port n : Nat) (encrypted : Bool) : Nat := if encrypted then min (confOffset s port) n else n

/-- What the cipher makes of a received frame's secure data: the user data, and whether its ICV is good. -/
def openFrame (s : State) (port : Nat) (sa : BitVec 512) (sci pn : Nat) (data : List Byte) : List Byte × Bool :=
  let head := 12 + secTagLen data
  let user := byteNats (rawUser data)
  let keys := saKeys sa
  let iv := secIv (s.on F.PT_MACSEC.XPN port) sa sci pn
  let n := clearLen s port user.length (bitAt (tciByte data) 3)
  let aad := byteNats (data.take head) ++ user.take n
  let icv := gcmTag keys iv aad (user.drop n)
  ((user.take n ++ ctrText keys iv (user.drop n)).map (BitVec.ofNat 8),
    icv == byteNats (slice data (head + secureLen data) 16))

/-- The SecTAG of a frame of `n` octets of user data: SC as INCLUDE_SCI says, E and C when it is encrypted. -/
def makeSecTag (s : State) (port n : Nat) (x : SecTx) : List Byte :=
  let sc := s.on F.PT_MACSEC.INCLUDE_SCI port
  let tci := x.sa % 4 + flag x.encrypted * 12 + flag sc * 32
  [0x88, 0xE5, BitVec.ofNat 8 tci, BitVec.ofNat 8 (if n < 48 then n else 0)] ++ beBytes 4 (x.pn % 2 ^ 32) ++
    (if sc then beBytes 8 (s.rd F.PT_MACSEC.TX_SCI port) else [])

/-- A frame with its SecTAG, its secure data and its ICV. -/
def sealFrame (s : State) (port : Nat) (x : SecTx) (data : List Byte) : List Byte :=
  let user := byteNats (data.drop 12)
  let front := data.take 12 ++ makeSecTag s port user.length x
  let sa := saAt s x.sa
  let keys := saKeys sa
  let iv := secIv (s.on F.PT_MACSEC.XPN port) sa (s.rd F.PT_MACSEC.TX_SCI port) x.pn
  let n := clearLen s port user.length x.encrypted
  let text := ctrText keys iv (user.drop n)
  let icv := gcmTag keys iv (byteNats front ++ user.take n) text
  front ++ (user.take n ++ text ++ icv).map (BitVec.ofNat 8)

/-! ### A received frame (R478) -/

/-- A frame passes MACsec on a MAC port: what the controlled or uncontrolled port delivers, if anything, counted
with the standard's outcome. -/
def secReceive (s : State) (port : Nat) (data : List Byte) : State × Option (List Byte) :=
  let strict := s.rd F.PT_MACSEC.VALIDATE port == 2
  let xpn := s.on F.PT_MACSEC.XPN port
  let key := 1152 + port
  if uncontrolled s port data then (s, some data)
  else if etherType data ≠ 0x88E5 then
    if strict then (countSec s key .noTag, none) else (countSec s key .untaggedIn, some data)
  else if !secTagGood xpn data then (countSec s key .badTag, none)
  else
    let changed := bitAt (tciByte data) 2
    match findRxSc s port data with
    | none =>
      if strict || changed then (countSec s key .noSci, none)
      else (countSec s key .unknownSci, some (untagged data (rawUser data)))
    | some r =>
      let i := 128 + 32 * port + 4 * r + tciByte data % 4
      let sa := saAt s i
      let both (s : State) (o : SecOutcome) := countSec (countSec s key o) i o
      if !saEn sa then
        if strict || changed then (both s .notUsing, none)
        else (both s .unused, some (untagged data (rawUser data)))
      else
        let pn := recoverPn xpn (saPn sa) (beNat (slice data 16 4))
        let old := decide (pn < saPn sa)
        let opened := openFrame s port sa (s.rd F.PT_RXSC.SCI (8 * port + r)) pn data
        if s.on F.PT_MACSEC.REPLAY_EN port && old then (both s .late, none)
        else if s.rd F.PT_MACSEC.VALIDATE port = 0 then
          (both s .unchecked, some (untagged data (if changed then opened.1 else rawUser data)))
        else if !opened.2 then
          if strict || changed then (both s .notValid, none)
          else (both s .invalid, some (untagged data (rawUser data)))
        else
          let lowest := max (saPn sa) (pn + 1 - s.rd F.PT_MACSEC.REPLAY_WIN port)
          let s := s.setSa i (saWithPn sa (min lowest (2 ^ pnBits s port - 1)))
          (both s (if old then .delayed else .ok), some (untagged data opened.1))

/-- FRAME_RECEIVE. A frame arrives at a port or client in service: it is timed before decryption, and what MACsec
delivers waits for admission; out of service it is a pre-service discard (R474, R478, R483). -/
def execFrameReceive (source : Nat) (data : List Byte) (s : State) : Host.Outcome State Fault Refusal :=
  if !objServes s source then .next (s.count 960 (some source) 1 {})
  else
    let t := withInvalid s (rxStamp s source)
    let r := if source < 32 then secReceive s source data else (s, some data)
    match r with
    | (s, none) => .next s
    | (s, some d) =>
      let p := Pkt.withLength ⟨tkPut 0 32 0 64 t, d⟩
      let s := (s.count 1216 (some source) 1 p.attr).count 1217 (some source) d.length p.attr
      .next { s with hn := { s.hn with rxQueue := Sparse.upd [] s.hn.rxQueue source (· ++ [p]) } }

/-! ### Transmission (R478, R479, R484 to R486) -/

/-- Steps of the time base applied after a time. -/
def stepsAfter (s : State) (t : Nat) : Int :=
  (s.pt.steps.filter (fun e => decide (t < e.1))).foldl (fun a e => a + e.2) 0

/-- The two parts of a PTP time, as ONE_STEP_TS writes them. -/
def ptpBytes (t : Nat) : List Byte := beBytes 6 (t / 1000000000) ++ beBytes 4 (t % 1000000000)

/-- The time action of a frame that leaves now (R485, R486). -/
def timeAction (s : State) (dest : Nat) (p : Pkt) : State × List Byte :=
  let w := tkGet p.ticket 116 0 32
  let off := bitsOf w 2 9
  let tx := txStamp s dest
  let skipped := (s.count 963 (if dest < 32 then some dest else none) 1 p.attr, p.data)
  let valid := s.on F.PT_TIME_CTRL.VALID 0
  match w % 4 with
  | 0 => (s, p.data)
  | 1 =>
    if 32 ≤ dest then skipped
    else
      let q := Sparse.get [] s.pt.tsQ dest
      if 64 ≤ q.length then (s.count 964 (some dest) 1 p.attr, p.data)
      else ({ s with pt := { s.pt with
        tsQ := Sparse.set [] s.pt.tsQ dest (q ++ [(bitsOf w 16 16, withInvalid s tx)]) } }, p.data)
  | 2 =>
    if 32 ≤ dest ∨ valid = false ∨ p.data.length < off + 44 then skipped
    else (s, splice p.data (off + 34) (ptpBytes tx))
  | _ =>
    if 32 ≤ dest ∨ valid = false ∨ bitAt (Tk.rxTime p.ticket) 63 = true ∨ p.data.length < off + 16 then skipped
    else
      let residence : Int := (tx : Int) - (Tk.rxTime p.ticket : Int) - stepsAfter s (Tk.rxTime p.ticket)
      let cf := unsigned 64 ((beNat (slice p.data (off + 8) 8) : Int) + residence * 65536)
      (s, splice p.data (off + 8) (beBytes 8 cf))

/-- A frame that its port protects: none when it is discarded. The first frame at or past the warning number
asserts the supervisor's line that the image assigns (R479). -/
def protectFrame (s : State) (port : Nat) (warnLine : Option Nat) (p : Pkt) : State × Option SecTx :=
  let i := 4 * port + s.rd F.PT_MACSEC.TX_AN port
  let sa := saAt s i
  if !saEn sa then (s, none)
  else if saPn sa = 0 then (s.count 962 none 1 p.attr, none)
  else
    let bits := pnBits s port
    let pn := saPn sa
    let s := s.setSa i (saWithPn sa ((pn + 1) % 2 ^ bits))
    let warn := decide (12 * 2 ^ (bits - 4) ≤ pn + 1) && !Sparse.get false s.pt.warned i
    let s := if warn then
        let s := { s with pt := { s.pt with warned := Sparse.set false s.pt.warned i true } }
        match warnLine with
        | some l => assertLine s 0 0 0 l
        | none => s
      else s
    let conf := s.on F.PT_MACSEC.CONF port
    let o : SecOutcome := if conf then .encryptedOut else .protectedOut
    (countSec (countSec s (1152 + port) o) i o, some ⟨i, pn, conf⟩)

/-- What MACsec makes of a frame on its way out: `none` in the first place discards it. -/
def secTransmit (s : State) (dest : Nat) (warnLine : Option Nat) (p : Pkt) : State × Option (Option SecTx) :=
  if 32 ≤ dest ∨ uncontrolled s dest p.data = true then (s, some none)
  else if !s.on F.PT_MACSEC.TX_EN dest then (countSec s (1152 + dest) .untaggedOut, some none)
  else
    let r := protectFrame s dest warnLine p
    (r.1, r.2.map some)

/-- What a port advertises when it negotiates: its own MODE and FEC alone. Of the modes
that may have AN_LT, 4 × 25 Gbaud is neither PAM4 nor 25GbE (R468). -/
def advertises (s : State) (n : Nat) : Option (Nat × Nat) :=
  if s.on F.PT_PORT.AN_LT n ∧ portMode s n ≠ 5 then some (portMode s n, s.rd F.PT_PORT.FEC n) else none

/-- The partner lets a port's link come up: a port that negotiates has found its own MODE and FEC there (R468). -/
def negotiated (s : State) (n : Nat) (partner : Option (Nat × Nat)) : Bool :=
  match advertises s n with
  | some a => partner == some a
  | none => true

/-- What a transmitter's lanes carry (R473). -/
inductive LineDrive where
  | electricalIdle | training | frames
  deriving DecidableEq, Repr

/-- The transmitter of a port or client: electrical idle out of service; link training while a port with AN_LT has no
link; else idle, and frames (R468, R473). -/
def lineDrive (s : State) (o : Nat) : LineDrive :=
  if !objServes s o then .electricalIdle
  else if decide (o < 32) && (advertises s o).isSome && !portLink s o then .training
  else .frames

/-- FRAME_TRANSMIT. The oldest released frame of a destination gets its time action and its protection, and leaves
(R484, R485, R479). It waits while the transmitter trains; out of service it is discarded (R473, R475). -/
def execFrameTransmit (dest : Nat) (warnLine : Option Nat) (s : State) : Host.Outcome State Fault Refusal :=
  match Sparse.get [] s.hn.macQueue dest with
  | [] => .next s
  | p :: rest =>
    let gone : State := { s with hn := { s.hn with macQueue := Sparse.set [] s.hn.macQueue dest rest } }
    match lineDrive s dest with
    | .electricalIdle => .next (gone.count 961 (some dest) 1 p.attr)
    | .training => .next s
    | .frames =>
      match secTransmit gone dest warnLine p with
      | (s, none) => .next s
      | (s, some sec) =>
        let a := timeAction s dest p
        let bytes := match sec with
          | some x => sealFrame s dest x a.2
          | none => a.2
        let s := (a.1.count 1218 (some dest) 1 p.attr).count 1219 (some dest) a.2.length p.attr
        .next (s.emit (.frame dest bytes (withInvalid s (txStamp s dest))))

/-! ### The time base (R480 to R482, R487) -/

/-- The time base moves by a signed amount; the step is kept with the time base at which it was applied (R481). -/
def stepTime (s : State) (v : Int) : State :=
  let steps := s.pt.steps ++ [(s.clk.ptp, v)]
  { s with
    clk := { s.clk with ptp := unsigned 63 ((s.clk.ptp : Int) + v) }
    pt := { s.pt with steps := steps.drop (steps.length - 16) } }

/-- VALUE of PT_TIME_ADJ as an OP clamps it. -/
def clampTimeValue (op v : Nat) : Nat :=
  match op with
  | 1 => min v (2 ^ 63 - 1)
  | 2 => unsigned 64 (max (-2 ^ 40) (min (2 ^ 40) (signed 64 v)))
  | _ => v

/-- An OP of PT_TIME_ADJ: 1 SET, 2 STEP. -/
def timeOp (s : State) (op : Nat) : State :=
  let v := clampTimeValue op (s.rd F.PT_TIME_ADJ.VALUE 0)
  let s := s.wr F.PT_TIME_ADJ.VALUE 0 v
  match op with
  | 1 => { s with clk := { s.clk with ptp := v, ptpFrac := 0 } }
  | 2 => stepTime s (signed 64 v)
  | _ => s

/-- The offset of a time from the nearest whole second. -/
def secondError (t : Int) : Int :=
  let r := t % 1000000000
  if r ≤ 500000000 then r else r - 1000000000

/-- PPS_EDGE. A PPS input edge (R482). `slew` is the ns that the loop moves the time base by until the next edge, at
most 100 ppm of a second. -/
def execPpsEdge (slew : Int) (s : State) : Host.Outcome State Fault Refusal :=
  if !s.on F.PT_PPS.IN_EN 0 then .next s
  else
    let t : Int := (s.clk.ptp : Int) + signed 16 (s.rd F.PT_PPS.IN_ADJ 0)
    let s := s.wr F.PT_TIME_STATUS.PPS_IN_TIME 0 (withInvalid s (unsigned 63 t))
    if !s.on F.PT_TIME_CTRL.PPS_DISC 0 then .next s
    else
      let e := secondError t
      let run := if e.natAbs ≤ 100 then s.pt.ppsRun + 1 else 0
      let s := { s with pt := { s.pt with ppsRun := run } }
      let s :=
        if 1000 < e.natAbs then stepTime s (-e)
        else
          let d := max (-100000) (min 100000 slew)
          { s with clk := { s.clk with ptp := unsigned 63 ((s.clk.ptp : Int) + d) } }
      .next (if 16 ≤ run then s.wr F.PT_TIME_CTRL.VALID 0 1 else s)

/-- ns until the time base next shows a whole second at which the output may rise. -/
def toNextSecond (s : State) : Nat :=
  let unit : Nat := 100000000000
  let rate := ((100000000000 : Int) + signed 32 (s.rd F.PT_TIME_CTRL.FREQ_ADJ 0)).toNat
  let now := s.clk.ptp * unit + s.clk.ptpFrac
  let first := if s.clk.ptp % 1000000000 = 0 ∧ s.pt.ppsFall ≤ s.clk.ptp then s.clk.ptp / 1000000000
    else s.clk.ptp / 1000000000 + 1
  (first * 1000000000 * unit - now + rate - 1) / rate

/-- PPS_OUT_EDGE. The time base has reached a whole second; the output rises while it is driven (R487). -/
def execPpsOutEdge (s : State) : Host.Outcome State Fault Refusal :=
  if !s.clk.diesOn then .next s
  else
    let s := elapse s (toNextSecond s)
    let driven := s.on F.PT_PPS.OUT_EN 0 && (s.on F.PT_TIME_CTRL.VALID 0 || s.on F.PT_PPS.OUT_FREE 0)
    let fall := s.clk.ptp + (if driven then s.rd F.PT_PPS.WIDTH_MS 0 * 1000000 else 1)
    let s := { s with pt := { s.pt with ppsFall := fall } }
    .next (if driven then s.emit .pps else s)

/-! ### FlexE calendars (R470) -/

/-- SWITCH is written 1. -/
def switchCalendar (s : State) (g : Nat) : State :=
  if s.on F.PT_FLEXE_GRP.SW_BUSY g ∨ s.on F.PT_FLEXE_GRP.EN g = false then s else s.wr F.PT_FLEXE_GRP.SW_BUSY g 1

/-- CALENDAR_SWITCH_DONE. The partner has acknowledged: the other calendar is in use (R470). -/
def execCalendarSwitchDone (group : Nat) (s : State) : Host.Outcome State Fault Refusal :=
  if s.on F.PT_FLEXE_GRP.SW_BUSY group then
    .next ((s.wr F.PT_FLEXE_GRP.CAL_USE group (1 - s.rd F.PT_FLEXE_GRP.CAL_USE group)).wr F.PT_FLEXE_GRP.SW_BUSY group 0)
  else .next s

/-! ### Lanes, links, adaptation (R488 to R490) -/

def laneAdapted (s : State) (k : Nat) : Bool := Sparse.get false s.pt.adapted k

/-- Line lane `k` has receive clock lock. -/
def laneLocked (s : State) (k : Nat) : Bool :=
  match lanePort s k with
  | some n => bitAt (s.rd F.PT_PORT_STATUS.LOCKED n) (k - n)
  | none => false

/-- Every lane of a port has lock and its initial adaptation complete. -/
def portAdapted (s : State) (n : Nat) : Bool :=
  (List.range (modeLanes (portMode s n))).all (fun i => laneLocked s (n + i) && laneAdapted s (n + i))

/-- ADAPTING shows initial adaptation of any lane of the port. -/
def syncAdapting (s : State) (n : Nat) : State :=
  s.wr F.PT_PORT_STATUS.ADAPTING n (flag ((List.range (modeLanes (portMode s n))).any (fun i =>
    laneLocked s (n + i) && !laneAdapted s (n + i))))

/-- A SyncE output is squelched: its port has no link, or the port's first lane no lock (R488). -/
def synceSquelched (s : State) (k : Nat) : Bool :=
  let n := s.rd F.PT_SYNCE.PORT k
  !portLink s n || !laneLocked s n

/-- Show in SQUELCHED what the outputs do. -/
def syncSynce (s : State) : State :=
  (s.wr F.PT_SYNCE.SQUELCHED 0 (flag (synceSquelched s 0))).wr F.PT_SYNCE.SQUELCHED 1 (flag (synceSquelched s 1))

/-- LANE_LOCK. A lane of an enabled port gains clock lock; the first time, it starts to adapt (R489). -/
def execLaneLock (lane : Nat) (s : State) : Host.Outcome State Fault Refusal :=
  match lanePort s lane with
  | none => .next s
  | some n =>
    let s := s.wr F.PT_PORT_STATUS.LOCKED n (setBit (s.rd F.PT_PORT_STATUS.LOCKED n) (lane - n) true)
    .next (syncSynce (syncAdapting s n))

/-- ADAPTATION_COMPLETE. A lane's initial adaptation is complete; with every lane of the port done and the PCS
aligned, LINK becomes 1, but for a port that has to negotiate first (R468, R489). -/
def execAdaptationComplete (lane : Nat) (aligned : Bool) (s : State) : Host.Outcome State Fault Refusal :=
  match lanePort s lane with
  | none => .next s
  | some n =>
    if laneLocked s lane = false ∨ laneAdapted s lane = true then .next s
    else
      let s := { s with pt := { s.pt with
        adapted := Sparse.set false s.pt.adapted lane true
        adaptedAt := Sparse.set 0 s.pt.adaptedAt lane s.clk.ns } }
      let s := syncAdapting s n
      .next (syncSynce (if aligned && portAdapted s n && negotiated s n none then s.wr F.PT_PORT_STATUS.LINK n 1 else s))

/-- ADAPTATION_CYCLE. Each equaliser setting named moves by one step; a second move of one setting in the cycle is
not made (R490). A cycle that has taken more than 1 s is a background overrun (R517). -/
def execAdaptationCycle (lane : Nat) (moves : List (Nat × Bool)) (s : State) : Host.Outcome State Fault Refusal :=
  if !laneAdapted s lane then .next s
  else
    let late := decide (Sparse.get 0 s.pt.adaptedAt lane + 1000000000 < s.clk.ns)
    let s := { s with pt := { s.pt with adaptedAt := Sparse.set 0 s.pt.adaptedAt lane s.clk.ns } }
    let s := if late then overrun s 5 else s
    let once := moves.foldl (fun (l : List (Nat × Bool)) m => if l.any (·.1 == m.1) then l else l ++ [m]) []
    .next (once.foldl (fun s m => { s with pt := { s.pt with
      equaliser := Sparse.upd 0 s.pt.equaliser (pairKey lane m.1) (fun v => if m.2 then v + 1 else v - 1) } }) s)

/-- HI_SER: FEC symbol errors of the last 1 ms exceed one in 10⁵ symbols (PT_PORT_STATUS). -/
def highErrors (s : State) (n : Nat) (r : LinkReport) : Bool :=
  s.rd F.PT_PORT.FEC n != 0 && decide (r.symbols < 100000 * r.symbolErrors)

/-- LINK_CHANGE. A port's LINK rises, once its lanes are adapted and what it negotiates is agreed, or falls; HI_SER shows
the symbol errors (R468, R488, R489). -/
def execLinkChange (port : Nat) (r : LinkReport) (s : State) : Host.Outcome State Fault Refusal :=
  let s := s.wr F.PT_PORT_STATUS.HI_SER port (flag (highErrors s port r))
  if r.up && !(s.on F.PT_PORT.EN port && portAdapted s port && negotiated s port r.partner) then .next s
  else .next (syncSynce (s.wr F.PT_PORT_STATUS.LINK port (flag r.up)))

/-- CLOCK_LOCK_LOSS. A lane loses clock lock (R488). -/
def execClockLockLoss (lane : Nat) (s : State) : Host.Outcome State Fault Refusal :=
  match lanePort s lane with
  | none => .next s
  | some n =>
    let s := s.wr F.PT_PORT_STATUS.LOCKED n (setBit (s.rd F.PT_PORT_STATUS.LOCKED n) (lane - n) false)
    .next (syncSynce (syncAdapting s n))

/-- A write has changed a port's EN or MODE: its lanes start anew. -/
def portChanged (s : State) (n wasEn wasMode : Nat) : State :=
  if s.rd F.PT_PORT.EN n = wasEn ∧ portMode s n = wasMode then s
  else
    let lanes := (List.range (max (modeLanes wasMode) (modeLanes (portMode s n)))).map (n + ·)
    let s := { s with pt := { s.pt with adapted := s.pt.adapted.filter (fun e => !lanes.contains e.1) } }
    let s := ((s.wr F.PT_PORT_STATUS.LINK n 0).wr F.PT_PORT_STATUS.LOCKED n 0).wr F.PT_PORT_STATUS.ADAPTING n 0
    syncSynce (s.wr F.PT_PORT_STATUS.HI_SER n 0)

/-! ### Reading PT_TS_FIFO (R486) -/

/-- A read of bits [63:0] takes the oldest entry, shows its TAG with VALID 1, and latches its time. -/
def takeStamp (s : State) (n : Nat) : State × Nat :=
  match Sparse.get [] s.pt.tsQ n with
  | [] => (s, 0)
  | e :: rest =>
    let s := { s with pt := { s.pt with tsQ := Sparse.set [] s.pt.tsQ n rest } }
    (s.wr F.PT_TS_FIFO.TIME n e.2, 1 + e.1 * 2 ^ 16)

end Sys2Proof.Machine
end

