-- ==== Sys2Proof/Machine/Learning.lean ====
section
/-! DEFINITION. Learning and ageing (R261 to R268). -/

namespace Sys2Proof.Machine

/-- What an event made of a key: nothing, a refresh, or a write of new data (R262, R378). -/
inductive LearnDid where
  | nothing | refreshed | wrote
  deriving DecidableEq, Repr

/-- What an occurrence tied to a table carries (R561). -/
def tableAttr (s : State) (t : Nat) : Attr := { realm := some (tblRealm s t) }

/-- The learn engine's work on one event (R262). -/
def learnApply (s : State) (ev : LearnEv) : State × LearnDid :=
  let t := ev.table
  let attr := tableAttr s t
  let obj := t * 64 + ev.realm
  if tblKind s t ≠ 2 ∨ tblLearnEn s t = false then (s.count 198 none 1 attr, .nothing)
  else
    let k : EKey := .nibs (fitKey s t ev.key)
    match itemsOf s t k with
    | [] =>
      if tblLearnLimit s t ≤ tblLearned s t then (s.count 201 (some obj) 1 attr, .nothing)
      else
        match placeItem s t k ⟨ev.data, 3, ageNow s, true⟩ with
        | some s' => (s', .wrote)
        | none => (s.count 202 (some obj) 1 attr, .nothing)
    | es =>
      if es.any (fun e => e.2.data != ev.data) then
        ((liveWrite s t k ev.data true).1.count 199 none 1 attr, .wrote)
      else
        ((es.foldl (fun s e => setItem s e.1 { e.2 with ts := ageNow s }) s).count 200 none 1 attr, .refreshed)

/-- AGE_TICK. TICK_MS has passed: NOW advances by one; the next tick uses TICK_MS as it now stands (R264,
R268). -/
def execAgeTick (s : State) : Host.Outcome State Fault Refusal :=
  if !s.clk.diesOn then .next s
  else
    let s := reachTime s s.lk.tickDue
    let s := s.wr F.LK_AGE_CTRL.NOW 0 ((ageNow s + 1) % 65536)
    .next { s with lk := { s.lk with
      tickDue := s.lk.tickDue + s.rd F.LK_AGE_CTRL.TICK_MS 0 * 1000000 } }

/-- Age of an entry in ticks, modulo 65,536 (R264). -/
def entryAge (s : State) (ts : Nat) : Nat := (ageNow s + 65536 - ts % 65536) % 65536

/-- SWEEP_VISIT. The sweeper visits a slot; an entry of age MAX_AGE or more gets a compare-and-delete. A pass
that could not finish in SWEEP_TICKS is counted, as a sweep overrun and a background overrun; a follower deletes nothing (R265,
R267, R379, R517). -/
def execSweepVisit (home slot : Nat) (overrun : Bool) (s : State) : Host.Outcome State Fault Refusal :=
  if s.on F.LK_AGE_CTRL.EN 0 && !tnFollower s then
    let s := if overrun then Machine.overrun (s.count 205 none 1 {}) 2 else s
    match entryAt s home slot with
    | some e =>
      if e.learned ∧ tblAgeEn s e.table = true ∧ tblMaxAge s e.table ≤ entryAge s e.ts then
        .next { s with lk := { s.lk with sweeps := s.lk.sweeps ++ [(e.table, e.key, e.ts)] } }
      else .next s
    | none => .next s
  else .next s

/-- AGE_COMPARE_DELETE. The oldest compare-and-delete reaches its entry: deleted when its TS is unchanged, an
age reprieve otherwise; nothing when the key is gone (R265, R266; log entry 154), or the module has become a follower
(R379). -/
def execAgeCompareDelete (s : State) : Host.Outcome State Fault Refusal :=
  match s.lk.sweeps with
  | [] => .next s
  | (t, k, ts) :: rest =>
    let s := { s with lk := { s.lk with sweeps := rest } }
    match itemsOf s t (.nibs k) with
    | [] => .next s
    | es =>
      if tnFollower s then .next s
      else if es.any (fun e => e.2.learned && e.2.ts == ts) then
        .next (sendChange ((liveDelete s t (.nibs k)).1.count 203 none 1 (tableAttr s t)) .erase t k 0 (ageNow s))
      else .next (if s.hallmark = 1 then s else s.count 204 none 1 (tableAttr s t))

/-- The learn engine takes one event and, as lead, tells its follower what it changed (R262, R378). -/
def learnTake (s : State) (ev : LearnEv) : State :=
  let r := learnApply s ev
  match r.2 with
  | .wrote => sendChange r.1 .write ev.table (fitKey s ev.table ev.key) ev.data (ageNow s)
  | _ => r.1

/-- LEARN_ENGINE_EVENT. The learn engine takes the oldest event (R262). -/
def execLearnEngineEvent (s : State) : Host.Outcome State Fault Refusal :=
  match s.lk.learnQ with
  | [] => .next s
  | ev :: rest => .next (learnTake { s with lk := { s.lk with learnQ := rest } } ev)

/-- TWIN_LEARN_EVENT. A follower's learn event joins the lead's learn engine in arrival order (R378). -/
def execTwinLearnEvent (ev : LearnEv) (s : State) : Host.Outcome State Fault Refusal :=
  if tnLead s && tnLink s then .next (learnEvent s ev (tableAttr s ev.table)) else .next s

/-- CHANGE_RECORD. The follower applies a change record as a live change; it always applies (R378, R387). -/
def execChangeRecord (rec : ChangeRec) (s : State) : Host.Outcome State Fault Refusal :=
  if !(tnFollower s && tnLink s) then .next s
  else
    let k := fitKey s rec.table rec.key
    let s := match rec.kind with
      | .write => setTs (liveWrite s rec.table (.nibs k) rec.data true).1 rec.table k rec.ts
      | .erase => (liveDelete s rec.table (.nibs k)).1
    .next (noteApplied s rec.table k rec.number)
where
  /-- The entry keeps the lead's TS. -/
  setTs (s : State) (t : Nat) (k : List (BitVec 4)) (ts : Nat) : State :=
    (itemsOf s t (.nibs k)).foldl (fun s e => setItem s e.1 { e.2 with ts := ts }) s
  /-- The highest change number applied to a key. -/
  noteApplied (s : State) (t : Nat) (k : List (BitVec 4)) (n : Nat) : State :=
    { s with tn := { s.tn with
      applied := (t, k, n) :: s.tn.applied.filter (fun a => !(a.1 == t && a.2.1 == k)) } }

/-- REFRESH_RECORD. The lead applies a follower's refresh record (R379). -/
def execRefreshRecord (table : Nat) (key : List (BitVec 4)) (s : State) : Host.Outcome State Fault Refusal :=
  if tnLead s && tnLink s then
    let k := fitKey s table key
    .next ((itemsOf s table (.nibs k)).foldl (fun s e => setItem s e.1 { e.2 with ts := ageNow s }) s)
  else .next s

end Sys2Proof.Machine
end

