-- ==== Sys2Proof/Machine/Twin.lean ====
section
/-! DEFINITION. The twin pair: roles, heartbeats, anneal, strict-meter state, the compare store's timeouts
(R367 to R375, R380, R386 to R391, R513). -/

namespace Sys2Proof.Machine

/-- Digest of the image that made the active coat (R386). -/
def coatDigest (s : State) : Nat := (coatOf s (activeSlot s)).digest

/-- What the module tells its twin of its coat (R386). -/
def sendCoat (s : State) : State :=
  sendTwin s (.coat (s.rd F.TN_STATUS.EPOCH 0) (s.rd F.SY_COAT_STATUS.GENERATION 0) (BitVec.ofNat 256 (coatDigest s)))

/-- Twin lanes that are UP. -/
def twinLanes (s : State) : List Nat := (List.range 48).filter (fun k => twinLane s k && laneUp s k)

/-- The module takes the lead (R371, R377). -/
def takeLead (s : State) : State :=
  let e := max (s.rd F.TN_STATUS.EPOCH 0) s.tn.heard + 1
  let s := (s.wr F.TN_STATUS.EPOCH 0 e).wr F.TN_STATUS.ROLE 0 1
  skipGenerated { s with tn := { s.tn with seasoned := true, formDue := none, lost := false } }

/-- The module is lead with its twin lost or absent. -/
def aloneLead (s : State) : State := (takeLead s).wr F.TN_STATUS.STATE 0 1

/-- The module becomes follower and begins anneal (R372, R386). -/
def beginAnneal (s : State) : State :=
  let s := (s.wr F.TN_STATUS.ROLE 0 0).wr F.TN_STATUS.STATE 0 2
  sendCoat { s with tn := { s.tn with sending := false, formDue := none, lost := false } }

/-- Does this module lead, both having met with roles as they are (R372)? -/
def leadsOver (s : State) (p : TwinPeer) : Bool :=
  let epoch := s.rd F.TN_STATUS.EPOCH 0
  let byEpoch := if epoch = p.epoch then decide (myId s < p.id) else decide (p.epoch < epoch)
  match tnLead s, p.lead with
  | true, false => true
  | false, true => false
  | true, true => byEpoch
  | false, false =>
    let suspect := s.on F.TN_STATUS.SUSPECT 0
    if suspect != p.suspect then !suspect
    else if s.tn.seasoned != p.seasoned then s.tn.seasoned
    else byEpoch

/-- The level that the twin lanes have agreed (R340, R367). -/
def agreedTwinLevel (s : State) : Nat :=
  match twinLanes s with
  | k :: _ => laneLevel s k
  | [] => 0

/-- TWIN_LINK_UP. The twin link comes up and the pair chooses its lead; the other module begins anneal (R367,
R372). -/
def execTwinLinkUp (peer : TwinPeer) (s : State) : Host.Outcome State Fault Refusal :=
  if modeEff s ≠ 3 ∨ (twinLanes s).isEmpty = true then .next s
  else
    let s := ((s.wr F.TN_STATUS.LINK 0 1).wr F.TN_STATUS.LEVEL_EFF 0 (agreedTwinLevel s)).wr
      F.TN_STATUS.TWIN_ID 0 peer.id
    let s := { s with tn := { s.tn with heard := peer.epoch, lastBeat := s.clk.ns } }
    if tnState s = 0 then .next s
    else if leadsOver s peer then
      let s := if tnLead s then s else takeLead s
      .next (sendCoat ((s.wr F.TN_STATUS.STATE 0 2)))
    else .next (beginAnneal (s.wr F.TN_STATUS.EPOCH 0 peer.epoch))

/-- The twin link is lost: a lead is alone, a follower that is not PAIRED forms anew (R371, R374). -/
def twinLinkLost (s : State) : State :=
  let s := (s.wr F.TN_STATUS.LINK 0 0).wr F.TN_STATUS.LEVEL_EFF 0 0
  let s := { s with tn := { s.tn with sending := false, tx := [] } }
  if tnState s = 0 then s
  else if tnLead s then s.wr F.TN_STATUS.STATE 0 1
  else if tnState s = 5 then s
  else s.wr F.TN_STATUS.STATE 0 2

/-- What a change of TN_CTRL.EN does (R373). -/
def twinEnEffect (s : State) (was : Bool) : State :=
  let now := s.on F.TN_CTRL.EN 0
  if now && !was then
    let s := (s.wr F.TN_STATUS.ROLE 0 0).wr F.TN_STATUS.STATE 0 2
    { s with tn := { s.tn with formDue := some (s.clk.ns + s.rd F.TN_CTRL.FORM_MS 0 * 1000000), lost := false } }
  else if was && !now then
    let s := (s.wr F.TN_STATUS.ROLE 0 0).wr F.TN_STATUS.STATE 0 0
    { s with tn := { s.tn with sending := false, formDue := none, lost := false } }
  else s

/-- FORM_TIMEOUT. FORM_MS has passed without the twin link (R373). -/
def execFormTimeout (s : State) : Host.Outcome State Fault Refusal :=
  match s.tn.formDue with
  | none => .next s
  | some due =>
    if tnState s = 2 ∧ tnLink s = false then
      let s := reachTime s due
      let s := { s with tn := { s.tn with formDue := none } }
      .next (if s.on F.TN_CTRL.AUTO_TAKE 0 then aloneLead s else s)
    else .next s

/-- LEAD_LOSS. A PAIRED follower has missed HB_MISS heartbeats, or every lane has left UP (R374). -/
def execLeadLoss (s : State) : Host.Outcome State Fault Refusal :=
  if tnState s ≠ 5 ∨ tnLead s = true then .next s
  else
    let s := if (twinLanes s).isEmpty then s else reachTime s (s.tn.lastBeat + s.rd F.TN_CTRL.HB_MISS 0 * 10000)
    if s.on F.TN_CTRL.AUTO_TAKE 0 ∧ s.on F.TN_STATUS.SUSPECT 0 = false then .next (aloneLead s)
    else .next (State.wr { s with tn := { s.tn with formDue := none, lost := true } } F.TN_STATUS.STATE 0 2)

/-- CMD = TAKE (R373 to R375). -/
def takeCmd (s : State) : State :=
  if tnState s = 5 ∧ tnLead s = false then
    sendTwin { (takeLead s) with tn := { (takeLead s).tn with sending := true } } .exchange
  else if tnState s = 2 ∧ tnLead s = false ∧ (tnLink s = false ∨ s.tn.lost = true) then aloneLead s
  else s

/-- CMD = YIELD (R375). -/
def yieldCmd (s : State) : State :=
  if tnState s = 5 ∧ tnLead s = true then
    sendTwin (State.wr { s with tn := { s.tn with sending := false } } F.TN_STATUS.ROLE 0 0) .exchange
  else s

/-- CMD = ANNEAL (R375). -/
def annealCmd (s : State) : State := if tnFollower s && tnLink s then beginAnneal s else s

/-- SUSPECT is cleared on both modules and the count of divergences restarts (R391). -/
def clearSuspect (s : State) (byTwin : Bool) : State :=
  let s := s.wr F.TN_STATUS.SUSPECT 0 0
  let s := { s with tn := { s.tn with divs := [] } }
  if byTwin then s else sendTwin s (.suspect false)

/-- HEARTBEAT. Every 10 µs the lead epoch goes out on every twin lane that is UP (R368, R371). -/
def execHeartbeat (s : State) : Host.Outcome State Fault Refusal :=
  if tnState s = 0 then .next s
  else
    let beats := (twinLanes s).map (fun k =>
      TwinMsg.heartbeat k (s.rd F.TN_STATUS.EPOCH 0) (s.on F.TN_STATUS.SUSPECT 0))
    .next { s with tn := { s.tn with tx := s.tn.tx ++ beats } }

/-- HEARTBEAT_RECEIVED. The twin's heartbeat restarts the follower's count; a PAIRED lead that hears a higher
epoch has been taken from and becomes follower (R371, R374, R375). -/
def execHeartbeatReceived (epoch : Nat) (suspect : Bool) (s : State) : Host.Outcome State Fault Refusal :=
  if tnState s = 0 then .next s
  else
    let s := { s with tn := { s.tn with heard := epoch, lastBeat := s.clk.ns } }
    let s := if suspect then s.wr F.TN_STATUS.SUSPECT 0 1 else s
    if tnLead s then
      if tnState s = 5 ∧ s.rd F.TN_STATUS.EPOCH 0 < epoch then
        let s := (s.wr F.TN_STATUS.ROLE 0 0).wr F.TN_STATUS.EPOCH 0 epoch
        .next { s with tn := { s.tn with sending := false } }
      else .next s
    else .next (s.wr F.TN_STATUS.EPOCH 0 epoch)

/-! ### Strict meters (R380) -/

/-- STRICT_METER_SYNC. The lead sends its strict buckets; the follower sets its own (R380). -/
def execStrictMeterSync (buckets : List (Nat × Nat)) (s : State) : Host.Outcome State Fault Refusal :=
  if !tnLink s || tnState s == 0 then .next s
  else if tnLead s then
    let bs := s.q.meters.filterMap (fun e =>
      if e.1 < 8192 ∧ e.2.type = 4 then some (e.1, (e.2.refill s.clk.ns).c) else none)
    .next (sendTwin s (.strict bs))
  else
    .next (buckets.foldl (fun s b =>
      let m := meterAt s b.1
      if b.1 < 8192 ∧ m.type = 4 then s.setMeter b.1 { m with c := b.2, remC := 0, last := s.clk.ns } else s) s)

/-! ### Digests (R390) -/

/-- DIGEST_RECORD. A follower's record reaches the lead's compare store (R390). -/
def execDigestRecord (stream rseq : Nat) (digest : BitVec 32) (s : State) : Host.Outcome State Fault Refusal :=
  if tnLead s && tnLink s then .next (compareDigest s ⟨false, stream, rseq, digest, s.clk.ns⟩) else .next s

/-- COMPARE_TIMEOUT. A record has stayed unpaired for CMP_US (R390). -/
def execCompareTimeout (own : Bool) (stream rseq : Nat) (s : State) : Host.Outcome State Fault Refusal :=
  match splitAtFirst (fun (d : Digest) => d.own == own && d.stream == stream && d.rseq == rseq) s.tn.digests with
  | none => .next s
  | some (pre, d, post) =>
    let s := reachTime s (d.since + s.rd F.TN_DIV.CMP_US 0 * 1000)
    .next (unpaired { s with tn := { s.tn with digests := pre ++ post } } own)

/-! ### Anneal (R386, R387) -/

/-- The twin's coat is compared with this module's; a difference is counted and its time kept (R386, R513). -/
def checkCoat (s : State) (digest : Nat) : State :=
  let s := { s with tn := { s.tn with twinDigest := some digest } }
  if digest = coatDigest s then { s with tn := { s.tn with mismatch := none } }
  else
    let s := s.count 715 none 1 {}
    { s with tn := { s.tn with mismatch := some (s.tn.mismatch.getD s.clk.ns) } }

/-- What the lead copies to its follower: learned entries, every stream, strict buckets as they stand now, in that order,
each with a change number (R386, R387). -/
def annealItems (s : State) : List AnnealItem :=
  let n := s.tn.change
  s.lk.slots.filterMap (fun e => e.2.bind (fun x =>
      if x.learned && tblLearnEn s x.table then some (.entry ⟨n, .write, x.table, x.key, x.data, x.ts⟩) else none)) ++
    (List.range 65536).map (fun i =>
      let t := streamAt s i
      .stream n i t.nextSeq t.recSeq t.takeAny t.history) ++
    s.q.meters.filterMap (fun e =>
      if e.1 < 8192 ∧ e.2.type = 4 then some (.bucket e.1 (e.2.refill s.clk.ns).c) else none)

/-- The lead begins its copy and its change records; what waits of an earlier copy is dropped (R386). -/
def startCopy (s : State) : State :=
  { s with tn := { s.tn with
    sending := true
    copied := s.clk.ns
    tx := s.tn.tx.filter (fun m => m.rank != 5) ++ (annealItems s).map TwinMsg.anneal } }

/-- A follower has begun anneal again while this lead was PAIRED or copied: the lead tells its epoch and coat again
(R375). -/
def lateAnneal (s : State) : Bool := tnLead s && (decide (tnState s = 5) || s.tn.sending)

/-- ANNEAL_MATCH. The twin's epoch, generation and coat digest arrive. On a match a forming follower adopts the
lead's generation and enters ANNEAL_COPY; the lead starts its change records and its copy (R386), again for a follower
that restarts (R375). -/
def execAnnealMatch (epoch generation : Nat) (digest : BitVec 256) (s : State) :
    Host.Outcome State Fault Refusal :=
  if !tnLink s || (tnState s != 2 && !lateAnneal s) then .next s
  else
    let s := if lateAnneal s then sendCoat (s.wr F.TN_STATUS.STATE 0 2) else s
    let s := checkCoat s digest.toNat
    if digest.toNat ≠ coatDigest s then .next { s with tn := { s.tn with sending := false } }
    else if tnLead s then .next (startCopy s)
    else
      let s := (s.wr F.SY_COAT_STATUS.GENERATION 0 generation).wr F.TN_STATUS.STATE 0 3
      let s := s.wr F.TN_STATUS.EPOCH 0 epoch
      .next { s with tn := { s.tn with heard := epoch, applied := [] } }

/-- ANNEAL_TRANSFER. A copied item arrives at the annealing follower; an entry is applied only if no change
record with a higher number was applied to its key (R386, R387). -/
def execAnnealTransfer (item : AnnealItem) (s : State) : Host.Outcome State Fault Refusal :=
  if tnState s ≠ 3 ∨ tnLead s = true then .next s
  else
    match item with
    | .entry r =>
      let k := fitKey s r.table r.key
      if s.tn.applied.any (fun a => a.1 == r.table && a.2.1 == k && decide (r.number < a.2.2)) then .next s
      else
        let s := (liveWrite s r.table (.nibs k) r.data true).1
        .next ((itemsOf s r.table (.nibs k)).foldl (fun s e => setItem s e.1 { e.2 with ts := r.ts }) s)
    | .stream _ i nextSeq recSeq takeAny history =>
      .next (s.setStream i { (streamAt s i) with
        nextSeq := nextSeq, recSeq := recSeq, takeAny := takeAny, history := history
        released := if takeAny then none else some recSeq })
    | .bucket m c =>
      let x := meterAt s m
      .next (s.setMeter m { x with c := c, remC := 0, last := s.clk.ns })

/-- ANNEAL_COPY_COMPLETE. The copy is complete (R386). -/
def execAnnealCopyComplete (s : State) : Host.Outcome State Fault Refusal :=
  if tnState s = 3 ∧ tnLead s = false then
    .next (State.wr { s with tn := { s.tn with copied := s.clk.ns } } F.TN_STATUS.STATE 0 4)
  else .next s

/-- The copy is complete here: a follower has been told so, a lead has sent all of it. -/
def copyDone (s : State) : Bool :=
  (!tnLead s && decide (tnState s = 4)) ||
    (tnLead s && decide (tnState s = 2) && s.tn.sending && s.tn.tx.all (fun m => m.rank != 5))

/-- PAIRED. 100 ms have passed since the copy with no divergence and SUSPECT 0 (R386, R391). -/
def execPaired (s : State) : Host.Outcome State Fault Refusal :=
  if s.on F.TN_STATUS.SUSPECT 0 ∨ tnLink s = false then .next s
  else if copyDone s then
    let s := reachTime s (max s.tn.copied s.tn.lastDivAt + 100000000)
    .next (State.wr { s with tn := { s.tn with seasoned := true, divTotal := 0, lastDiv := none } } F.TN_STATUS.STATE 0 5)
  else .next s

/-- TWIN_RECOAT_DIGEST. The twin has completed a recoat: the digests are checked again (R386). -/
def execTwinRecoatDigest (digest : BitVec 256) (s : State) : Host.Outcome State Fault Refusal :=
  if tnLink s ∧ tnState s ≠ 0 then .next (checkCoat s digest.toNat) else .next s

/-- COAT_MISMATCH_TIMEOUT. A mismatch found while PAIRED still stands 10 s later: the lead sets SUSPECT (R513). -/
def execCoatMismatchTimeout (s : State) : Host.Outcome State Fault Refusal :=
  match s.tn.mismatch with
  | none => .next s
  | some t =>
    if tnState s = 5 ∧ tnLead s = true then .next (setSuspect (reachTime s (t + 10000000000))) else .next s

/-- This module has completed a recoat: the digest goes to the twin and the check is made again (R386). -/
def recoatTwin (s : State) : State :=
  if tnLink s ∧ tnState s ≠ 0 then
    let s := sendCoat s
    match s.tn.twinDigest with
    | some d => checkCoat s d
    | none => s
  else s

end Sys2Proof.Machine
end

