-- ==== Sys2Proof/Machine/Lanes.lean ====
section
/-! DEFINITION. Fabric lanes as their registers start and stop them, and the mode in effect (R24, R338 to R346). -/

namespace Sys2Proof.Machine

/-- Lane `k` is powered down in the mode in effect (R24). -/
def laneOffInMode (s : State) (k : Nat) : Bool :=
  modeEff s == 2 || (modeEff s == 3 && decide (k < 32))

/-- LEVELS of a lane for its use (FB_LINK). -/
def laneLevels (s : State) (k : Nat) : Nat :=
  if twinLane s k then (if s.hallmark = 1 then 1 else 3) else (if s.hallmark = 1 then 2 else 6)

/-- EN of TN_CTRL is clamped to the mode in effect (TN_CTRL). -/
def clampTwinEn (s : State) : State :=
  if modeEff s = 3 ∨ s.on F.TN_CTRL.EN 0 = false then s
  else twinEnEffect (s.wr F.TN_CTRL.EN 0 0) true

/-- MODE and MODULE_ID take effect when all 48 lanes are DOWN (R339); LEVELS of every lane is set for its use. -/
def modeSettle (s : State) : State :=
  if (List.range 48).all (fun k => laneState s k == 0) then
    let was := modeEff s
    let s := (s.wr F.FB_MODE.MODE_EFF 0 (s.rd F.FB_MODE.MODE 0)).wr F.FB_MODE.ID_EFF 0 (s.rd F.FB_MODE.MODULE_ID 0)
    if modeEff s = was then lanesChanged s
    else
      lanesChanged <| clampTwinEn ((List.range 48).foldl (fun s k =>
        let s := s.wr F.FB_LINK.LEVELS k (laneLevels s k)
        if laneOffInMode s k then s.wr F.FB_LINK.EN k 0 else s) s)
  else s

/-- A cell that waited for a lane that has left goes on the next of the pattern (R346); with none left it is lost (R344). -/
def respray (s : State) (c : Cell) : State :=
  let m := if modeEff s = 3 then s.rd F.TN_STATUS.TWIN_ID 0 else Hd.dest c.hdr / 1024
  let ctx := if Hd.relayed c.hdr then 2 else flag (Hd.express c.hdr)
  let r := sprayLane s m ctx (ctxLanes s m ctx)
  match r.2 with
  | some k => sendCell r.1 k c
  | none => r.1

/-- What waited for lane `k` goes elsewhere. -/
def flushLane (s : State) (k : Nat) : State :=
  let t := laneTx s k
  let s := s.setLaneTx k LaneTx.init
  let s := (t.control.filter (fun x => !isHello x.2)).foldl (fun s x => sendControl s x.1 x.2) s
  (t.relayedCtl ++ t.express ++ t.relayed ++ t.bulk).foldl respray s

/-- Lane `k` takes STATE `st`, which is not UP: it leaves the spray pattern, and the last twin lane takes the twin
link with it (R346, R367, R371). -/
def laneLeaves (s : State) (k st : Nat) : State :=
  let s := (s.wr F.FB_LINK.STATE k st).wr F.FB_LINK.LEVEL_EFF k 0
  let s := flushLane (lanesChanged s) k
  let s := if tnLink s && (twinLanes s).isEmpty then twinLinkLost s else s
  modeSettle s

/-- May lane `k` train: EN = 1, in service, and not held down by a power state? -/
def laneMayTrain (s : State) (k : Nat) : Bool := s.on F.FB_LINK.EN k && svState s (96 + k) == 0 && !lanesLeaving s

/-- EN of a lane has been written (R340, R344). -/
def laneEnEffect (s : State) (k : Nat) (was : Bool) : State :=
  if s.on F.FB_LINK.EN k = was then s
  else if was then laneLeaves s k 0
  else if laneMayTrain s k then s.wr F.FB_LINK.STATE k 1
  else s

/-- LANE_DOWN. A lane that was UP has failed: with EN = 1 it trains again (R340, R346). -/
def execLaneDown (lane : Nat) (s : State) : Host.Outcome State Fault Refusal :=
  if lane < 48 ∧ laneUp s lane = true then .next (laneLeaves s lane (flag (laneMayTrain s lane))) else .next s

end Sys2Proof.Machine
end

