-- ==== Sys2Proof/Machine/Service.lean ====
section
/-! DEFINITION. Taking units out of service and bringing them back: slices, associative banks, fabric lanes; SRAM
columns, regulator phases, self-test failures, and the hourly life record (R491 to R520, R392). -/

namespace Sys2Proof.Machine

/-! ### Units -/

/-- STANDS_FOR of a unit, 63 for none. -/
def standsFor (s : State) (u : Nat) : Nat := s.rd F.SY_SVC_UNIT.STANDS_FOR u

/-- The bank whose address a bank unit answers for. -/
def bankAddr (s : State) (u : Nat) : Nat := if u < 64 then u - 32 else standsFor s u

/-- The bank unit that answers for a bank address: a standing spare, or the bank itself. -/
def bankUnit (s : State) (b : Nat) : Nat :=
  if svState s 64 = 0 ∧ standsFor s 64 = b then 64
  else if svState s 65 = 0 ∧ standsFor s 65 = b then 65
  else 32 + b

/-- A spare bank that may stand in now, and is not being loaded. -/
def freeBank (s : State) : Option Nat :=
  [64, 65].find? (fun u => svState s u == 1 && s.sv.runs.all (fun r =>
    match r with
    | .bank _ sp _ => sp != u
    | _ => true))

def setResult (s : State) (r : Nat) : State := s.wr F.SY_SVC_CMD.RESULT 0 r

/-- A quad whose banks are all out of service takes its requested ganging and modes (R208). -/
def gangEffect (s : State) (quad : Nat) : State :=
  if bitsOf (s.rd F.LK_BANK_OOS.OOS 0) (4 * quad) 4 = 15 then
    let s := s.wr (F.LK_GANG.GANG_EFF quad) 0 (s.rd (F.LK_GANG.GANG quad) 0)
    let req := bitsOf (s.rd F.LK_BANK_MODE.EXACT 0) (4 * quad) 4
    s.wr F.LK_BANK_MODE.EXACT_EFF 0 (putBits (s.rd F.LK_BANK_MODE.EXACT_EFF 0) (4 * quad) 4 req)
  else s

/-- A bank address goes out of service, or returns (R502, R506). -/
def setOos (s : State) (b : Nat) (out : Bool) : State :=
  gangEffect (s.wr F.LK_BANK_OOS.OOS 0 (setBit (s.rd F.LK_BANK_OOS.OOS 0) b out)) (b / 4)

/-- EVENTS of a unit: a slice's parity errors of the last 24 h, else the self-test failures since start. -/
def unitEvents (s : State) (u : Nat) : Nat :=
  min 65535 (if u ≤ 16 then ((Sparse.get [] s.sv.parity u).filter (fun t => decide (s.clk.ns < t + dayNs))).length
    else sumOf (s.sv.selftests.map (fun e => if (unpair e.1).2 = u then e.2 else 0)))

/-! ### RETIRE (R494, R495, R501 to R503) -/

/-- RETIRE of a slice in service. -/
def retireSliceCmd (s : State) (n : Nat) (nosub : Bool) : State :=
  let stand := !nosub && (freeSpare s).isSome
  if !stand && (s.hn.active.filter (·.isSome)).length ≤ 1 && s.hn.active.contains (some n) then setResult s 2
  else setResult (retireSlice s n nosub) (if stand || nosub then 0 else 1)

/-- A bank goes out of service with nothing in its place. -/
def bankOut (s : State) (u : Nat) : State :=
  let b := bankAddr s u
  setOos ((s.setSv u 3).wr F.SY_SVC_UNIT.STANDS_FOR u 63) b true

/-- RETIRE of a bank unit that answers for an address. -/
def retireBank (s : State) (u : Nat) (nosub : Bool) : State :=
  match if nosub then none else freeBank s with
  | some sp => setResult ((s.setSv u 2).addRun (.bank u sp s.clk.ns)) 0
  | none => setResult (bankOut s u) (if nosub then 0 else 1)

/-- RETIRE of a fabric lane: it leaves the spray pattern at once. -/
def retireLane (s : State) (k : Nat) : State :=
  setResult (lanesChanged ((s.setSv (96 + k) 2).addRun (.lane k s.clk.ns))) 0

/-- RETIRE of a unit. -/
def retireUnit (s : State) (u : Nat) (nosub : Bool) : State :=
  if svState s u = 1 then
    let s := setResult (s.setSv u 3) 0
    if u ≤ 16 ∧ s.hn.spare = some u then syncActive { s with hn := { s.hn with spare := none } } else s
  else if svState s u ≠ 0 then setResult s 2
  else if u ≤ 16 then retireSliceCmd s u nosub
  else if u < 96 then retireBank s u nosub
  else retireLane s (u - 96)

/-! ### REINSTATE and ABORT (R494, R506) -/

/-- REINSTATE of a unit: SELFTEST begins. A lane trains while it is tested. -/
def reinstateUnit (s : State) (u : Nat) : State :=
  if svState s u ≠ 3 ∧ svState s u ≠ 7 then setResult s 2
  else
    let s := (s.setSv u 4).wr F.SY_SVC_UNIT.MISMATCH u 0
    let s := if 96 ≤ u then s.wr F.FB_LINK.STATE (u - 96) 1 else s
    setResult (s.addRun (.reinstate u false)) 0

/-- The run of a unit's reinstatement ends. -/
def endReinstate (s : State) (u : Nat) : State :=
  syncBusy { s with sv := { s.sv with runs := s.sv.runs.filter (fun r =>
    match r with
    | .reinstate v _ => v != u
    | _ => true) } }

/-- ABORT of a unit. -/
def abortUnit (s : State) (u : Nat) : State :=
  if svState s u < 4 ∨ svState s u = 7 then setResult s 2
  else
    let s := if 96 ≤ u then s.wr F.FB_LINK.STATE (u - 96) 0 else s
    setResult (endReinstate (s.setSv u 3) u) 4

/-- An OP of SY_SVC_CMD. RETIRE and REINSTATE are discarded while BUSY is 1; ABORT ends what runs. -/
def serviceOp (s : State) (op : Nat) : State :=
  let u := s.rd F.SY_SVC_CMD.UNIT 0
  let busy := s.on F.SY_SVC_CMD.BUSY 0
  if op = 0 ∨ (busy = true ∧ op ≠ 3) then s
  else if !unitExists u then setResult s 2
  else
    match op with
    | 1 => retireUnit s u (s.on F.SY_SVC_CMD.NOSUB 0)
    | 2 => reinstateUnit s u
    | _ => abortUnit s u

/-! ### Ends of retirements -/

/-- A slice holds no packet: none waits, none is in a thread (R495 at D). -/
def sliceEmpty (s : State) (n : Nat) : Bool :=
  (s.slice n).queue.isEmpty && (s.slice n).handlers.isEmpty &&
  s.hn.threads.all (fun e =>
    let core := (unpair e.1).1
    e.2.job.isNone || decide (core < n * 24 ∨ n * 24 + 24 ≤ core))

/-- SLICE_DRAIN_END. A draining slice holds no packet: it is OUT, and the spare serves its position (R495). -/
def execSliceDrainEnd (slice : Nat) (s : State) : Host.Outcome State Fault Refusal :=
  match s.sv.runs.find? (fun r => match r with
    | .drain n _ _ => n == slice
    | _ => false) with
  | some (.drain n stand since) =>
    if !sliceEmpty s n then .next s
    else
      let s := ((s.endRun (.drain n stand since)).setSv n 3).wr F.SY_SVC_UNIT.STANDS_FOR n 63
      let s := match stand with
        | some (p, sp) => (s.setSv sp 0).wr F.SY_SVC_UNIT.STANDS_FOR sp p
        | none => s
      let s := s.updLife (fun l => { l with
        sliceRetires := l.sliceRetires + 1
        spareSlice := if stand.isSome then 255 else l.spareSlice })
      .next (lifeEvent (syncActive s) 1 n (match stand with
        | some (_, sp) => sp
        | none => 255))
  | _ => .next s

/-- BANK_SPARE_LOADED. The spare holds every entry: it answers for the retired bank from the next cycle (R501). -/
def execBankSpareLoaded (bank : Nat) (s : State) : Host.Outcome State Fault Refusal :=
  match s.sv.runs.find? (fun r => match r with
    | .bank u _ _ => bankAddr s u == bank
    | _ => false) with
  | some (.bank u sp since) =>
    let s := ((s.endRun (.bank u sp since)).setSv u 3).wr F.SY_SVC_UNIT.STANDS_FOR u 63
    .next (lifeEvent ((s.setSv sp 0).wr F.SY_SVC_UNIT.STANDS_FOR sp bank) 3 (32 + bank) sp)
  | _ => .next s

/-- LANE_RETIRE_WINDOW_END. WINDOW_US after its retirement the lane is DOWN and trains no more (R503). -/
def execLaneRetireWindowEnd (lane : Nat) (s : State) : Host.Outcome State Fault Refusal :=
  match s.sv.runs.find? (fun r => match r with
    | .lane k _ => k == lane
    | _ => false) with
  | some (.lane k since) =>
    let s := reachTime s (since + s.rd F.FB_REORDER_CTRL.WINDOW_US 0 * 1000)
    let s := laneLeaves ((s.endRun (.lane k since)).setSv (96 + k) 3) k 0
    let s := s.updLife (fun l => { l with lanesRetired := setBit l.lanesRetired k true })
    .next (lifeEvent s 5 (96 + k) 0)
  | _ => .next s

/-! ### Stages of a reinstatement (R506, R507) -/

/-- Both coats' packet code of a slice as the code master holds it. -/
def masterCode (c : Coat) (n : Nat) : Coat :=
  let keep (e : Nat) : Bool := decide ((unpair e).1 ≠ n)
  { c with
    code := c.master.foldl (fun m e => Sparse.set 0 m (pairKey n e.1) e.2) (c.code.filter (fun e => keep e.1))
    codeBad := c.codeBad.filter (fun e => keep e.1) }

/-- LOAD of a slice: its code memories from the code master, its local memory 0. -/
def loadSlice (s : State) (n : Nat) : State :=
  clearSliceMemory { s with coat := { s.coat with
    slotA := masterCode s.coat.slotA n, slotB := masterCode s.coat.slotB n } } n

/-- A slice joins: the lowest empty position of the active list, or the spare. -/
def admitSlice (s : State) (n : Nat) : State :=
  match findPosition s (·.isNone) with
  | some p =>
    let s := (s.setSv n 0).wr F.SY_SVC_UNIT.STANDS_FOR n p
    syncActive { s with hn := { s.hn with active := setAt s.hn.active p (some n) } }
  | none =>
    let s := s.updLife (fun l => { l with spareSlice := n })
    syncActive { (s.setSv n 1) with hn := { s.hn with spare := some n } }

/-- A bank returns: its standing spare goes back to SPARE, or its address to service. -/
def admitBank (s : State) (b : Nat) : State :=
  let u := bankUnit s b
  if 64 ≤ u then ((s.setSv u 1).wr F.SY_SVC_UNIT.STANDS_FOR u 63).setSv (32 + b) 0
  else setOos (s.setSv (32 + b) 0) b false

/-- ADMIT. -/
def admitUnit (s : State) (u : Nat) : State :=
  let s := setResult (endReinstate s u) 0
  if u ≤ 16 then lifeEvent (admitSlice s u) 2 u 0
  else if u < 64 then lifeEvent (admitBank s (u - 32)) 4 u 0
  else if u < 96 then s.setSv u 1
  else
    let s := (s.setSv u 0).updLife (fun l => { l with lanesRetired := setBit l.lanesRetired (u - 96) false })
    lifeEvent s 6 u 0

/-- The reinstatement of a unit must load again (R507). -/
def reloads (s : State) (u : Nat) : Bool := s.sv.runs.contains (.reinstate u true)

/-- A write of the staged slot's code or a completed recoat meets a LOAD: it starts again (R507). -/
def restartLoads (s : State) : State :=
  let runs := s.sv.runs.map (fun r => match r with
    | .reinstate u b => .reinstate u (b || (svState s u == 5 && decide (u ≤ 16)))
    | r => r)
  { s with sv := { s.sv with runs := runs } }

/-- STAGE_COMPLETE. A stage ends (R506). -/
def execStageComplete (unit : Nat) (ok : Bool) (s : State) : Host.Outcome State Fault Refusal :=
  match svState s unit with
  | 4 =>
    if ok then .next (s.setSv unit (if 96 ≤ unit then 6 else 5)) else .next (failUnit s unit)
  | 5 =>
    if !ok then .next (failUnit s unit)
    else if reloads s unit then
      .next { s with sv := { s.sv with runs := s.sv.runs.map (fun r =>
        if r = .reinstate unit true then .reinstate unit false else r) } }
    else .next ((if unit ≤ 16 then loadSlice s unit else s).setSv unit 6)
  | 6 => if ok then .next (admitUnit s unit) else .next (failUnit s unit)
  | _ => .next s

/-- SHADOW_COMPARE. A copy and its real packet have both ended (R508). -/
def execShadowCompare (unit copy : Nat) (s : State) : Host.Outcome State Fault Refusal :=
  let mine := s.hn.shadowEnds.filter (fun e => e.1 == copy)
  match mine.find? (fun e => e.2.1), mine.find? (fun e => !e.2.1) with
  | some c, some r =>
    let s := { s with hn := { s.hn with shadowEnds := s.hn.shadowEnds.filter (fun e => e.1 != copy) } }
    if r.2.2 = shadowAbandoned ∨ c.2.2 = r.2.2 ∨ svState s unit ≠ 6 then .next s
    else
      let n := satAdd 16 (s.rd F.SY_SVC_UNIT.MISMATCH unit) 1
      let s := s.wr F.SY_SVC_UNIT.MISMATCH unit n
      .next (if s.rd F.SY_SVC_CTRL.SHADOW_FAIL 0 ≤ n then failUnit s unit else s)
  | _, _ => .next s

/-! ### Self-test (R392, R499, R502, R503) -/

/-- What becomes of a unit that failed its self-test. -/
def selftestUnit (s : State) (u : Nat) : State :=
  if !s.on F.SY_SVC_CTRL.AUTO_SPARE 0 || svState s u != 0 then s
  else if u ≤ 16 then (if (freeSpare s).isSome then retireSlice s u false else s.raise 0)
  else if u < 96 then (if (freeBank s).isSome then retireBank s u false else s)
  else retireLane s (u - 96)

/-- SELFTEST_FAILURE. A failure is counted by kind and by unit and its unit handled; on a PAIRED follower it also
sets SUSPECT (R392). -/
def execSelftestFailure (unit kind : Nat) (s : State) : Host.Outcome State Fault Refusal :=
  if !s.on F.TN_CTRL.SELFTEST_EN 0 || !s.clk.diesOn then .next s
  else
    let s := { s with sv := { s.sv with selftests := Sparse.upd 0 s.sv.selftests (pairKey kind unit) (· + 1) } }
    let s := if unitExists unit then selftestUnit s unit else s
    .next (if tnState s = 5 ∧ tnLead s = false then setSuspect s else s)

/-! ### SRAM columns (R504) -/

def columnKey (die array column : Nat) : Nat := tripleKey die array column

/-- Corrected errors of a column within the last 24 h. -/
def columnErrors (s : State) (die array column : Nat) : List Nat :=
  (Sparse.get [] s.sv.colErrs (columnKey die array column)).filter (fun t => decide (s.clk.ns < t + dayNs))

/-- An array has a spare column free. -/
def columnFree (s : State) (die array : Nat) : Bool :=
  decide (Sparse.get 0 s.sv.colUsed (pairKey die array) < Config.spareColumns die array + 1)

/-- The scrub reads a column; one that it has not read for more than 24 h is a background overrun (R504, R517). -/
def scrubColumn (s : State) (k : Nat) : State :=
  let late := decide (Sparse.get 0 s.sv.scrubbed k + dayNs < s.clk.ns)
  let s := { s with sv := { s.sv with scrubbed := Sparse.set 0 s.sv.scrubbed k s.clk.ns } }
  if late then overrun s 1 else s

/-- SRAM_SCRUB. The scrub reads a word; a fourth corrected error of a column in 24 h begins its repair, or finds no
spare column left. -/
def execSramScrub (die array column : Nat) (ecc : EccResult) (s : State) : Host.Outcome State Fault Refusal :=
  if !s.clk.diesOn then .next s
  else if ecc = .corrected then
    let s := scrubColumn s (columnKey die array column)
    let ts := columnErrors s die array column ++ [s.clk.ns]
    let s := { s with sv := { s.sv with colErrs := Sparse.set [] s.sv.colErrs (columnKey die array column) ts } }
    .next (if ts.length = 4 ∧ columnFree s die array = false then s.count 1089 none 1 {} else s)
  else .next (scrubColumn s (columnKey die array column))

/-- COLUMN_REPAIR. A repair that has begun completes: reads switch to the spare column. -/
def execColumnRepair (die array column : Nat) (s : State) : Host.Outcome State Fault Refusal :=
  if 4 ≤ (columnErrors s die array column).length ∧ columnFree s die array = true then
    let s := { s with sv := { s.sv with
      colErrs := Sparse.set [] s.sv.colErrs (columnKey die array column) []
      colUsed := Sparse.upd 0 s.sv.colUsed (pairKey die array) (· + 1) } }
    let s := s.updLife (fun l =>
      if die = 0 then { l with columnsH := l.columnsH + 1 } else { l with columnsV := l.columnsV + 1 })
    .next (lifeEvent s 9 die column)
  else .next s

/-! ### Regulator phases (R505) -/

/-- A phase fails its check: less than half or more than twice the mean, or a fault of its own. -/
def phaseFails (currents : List Nat) (faults : List Bool) (i : Nat) : Bool :=
  let n := currents.length
  let sum := sumOf currents
  let c := currents.getD i 0
  faults.getD i false || decide (2 * c * n < sum) || decide (2 * sum < c * n)

/-- A phase of a rail is disabled: the spare replaces the first, and the rail has lost a second. -/
def losePhase (rail : Nat) (s : State) (phase : Nat) : State :=
  match Sparse.get none s.lt.phaseSub rail with
  | none =>
    let s := { s with lt := { s.lt with phaseSub := Sparse.set none s.lt.phaseSub rail (some phase) } }
    lifeEvent (s.updLife (fun l => { l with phases := l.phases + 1 })) 10 rail phase
  | some _ => { s with lt := { s.lt with phaseLost := Sparse.set false s.lt.phaseLost rail true } }

end Sys2Proof.Machine
end

