-- ==== Sys2Proof/Machine/Lath.lean ====
section
/-! DEFINITION. The Lath: supplies, rails, ADC samples and rules, fixed protections, the power target, powering
slices and ports down, Holdover and Dormant entry, wake and resume (R521 to R551). -/

namespace Sys2Proof.Machine

/-! ### Throttle and ceilings (R531 to R533, R537) -/

def State.setLt (s : State) (f : LathSt → LathSt) : State := { s with lt := f s.lt }

def ruleAsserted (s : State) (i : Nat) : Bool := bitAt (s.rd F.LT_RULE_STAT.ASSERTED (i / 64)) (i % 64)

/-- Asserted rules with an action, in rule order. -/
def assertedWith (s : State) (action : Nat) : List Nat :=
  (List.range 256).filter (fun i => ruleAsserted s i && s.rd F.LT_RULE.ACTION i == action)

/-- Does rail `r` (0 to 8) feed throttle target `t` (R525)? -/
def railFeeds (r t : Nat) : Bool :=
  match r with
  | 0 => decide (2 ≤ t)
  | 3 => t == 0
  | 4 => t == 1
  | 7 => decide (2 ≤ t)
  | 8 => decide (2 ≤ t)
  | _ => decide (t < 2)

/-- The level that the fixed protections assert for a target. -/
def protectLevel (s : State) (t : Nat) : Nat :=
  let phase := if (List.range 9).any (fun r => Sparse.get false s.lt.phaseLost r && railFeeds r t) then 8 else 0
  max phase (if t < 2 then (if Sparse.get false s.lt.dieHot t then 15 else 0)
    else Sparse.get 0 s.lt.stackLevel (t - 2))

/-- The level applied to a target: the highest asserted (R532). -/
def throttleLevel (s : State) (t : Nat) : Nat :=
  (assertedWith s 4).foldl (fun l i =>
    let p := s.rd F.LT_RULE.PARAM i
    if bitsOf p 4 3 = t then max l (bitsOf p 0 4) else l) (protectLevel s t)

/-- The lowest ceiling in force: 0 none, 1 DORMANT, 2 HOLDOVER. -/
def lowestCap (s : State) : Nat :=
  let caps := (assertedWith s 1).map (fun i => s.rd F.LT_RULE.PARAM i)
  leastOf (if s.lt.ceiling then 1 :: caps else caps)

/-- LT_THROTTLE, CAP and CAP_RULE show what is in force. -/
def syncLath (s : State) : State :=
  let s := (List.range 5).foldl (fun s t => s.wr (F.LT_THROTTLE.LEVEL t) 0 (throttleLevel s t)) s
  let cap := lowestCap s
  let rule := ((assertedWith s 1).find? (fun i => s.rd F.LT_RULE.PARAM i == cap)).getD 255
  (s.wr F.LT_POWER.CAP 0 cap).wr F.LT_POWER.CAP_RULE 0 (if cap = 0 then 255 else rule)

/-- PHASE_CHECK. The Lath compares the phase currents of a rail (R505). A phase that was substituted is disabled and
takes no part. -/
def execPhaseCheck (rail : Nat) (currents : List Nat) (faults : List Bool) (s : State) :
    Host.Outcome State Fault Refusal :=
  if s.lt.running ∧ rail < s.lt.rails then
    .next (syncLath (((List.range currents.length).filter (fun i =>
      phaseFails currents faults i && decide (Sparse.get none s.lt.phaseSub rail ≠ some i))).foldl (losePhase rail) s))
  else .next s

def powerState (s : State) : Nat := s.rd F.LT_POWER.STATE 0

/-- The target state (R537): 1 DORMANT, 2 HOLDOVER, 3 PARTIAL, 4 FULL. -/
def powerTarget (s : State) : Nat :=
  let cap := s.rd F.LT_POWER.CAP 0
  let t := if cap = 0 then s.rd F.LT_POWER.REQ 0 else min (s.rd F.LT_POWER.REQ 0) cap
  if !s.on F.LT_SUPPLY.VIN_VALID 0 then 1
  else if t < 3 then t
  else if s.rd F.LT_DOMAIN.SLICE_OFF 0 = 0 ∧ s.rd F.LT_DOMAIN.PORT_OFF 0 = 0 then 4 else 3

/-- A power state is entered: the event log names it (R535). -/
def enterPower (s : State) (st : Nat) : State :=
  logPlain ((((s.setLt (fun l => { l with transition := none })).wr F.LT_POWER.STATE 0 st).wr F.LT_POWER.BUSY 0 0)) 4 st

/-! ### Wake (R550, R551) -/

/-- A rule makes a wake request. -/
def wakeRequest (s : State) (rule : Nat) (link : LinkState) (meets : Bool) : State :=
  let s := logEntry s 5 0 rule 0
  if s.on F.LT_WAKE.PENDING 0 then
    s.wr F.LT_WAKE.MERGED 0 (satAdd 8 (s.rd F.LT_WAKE.MERGED 0) 1)
  else
    let s := ((s.wr F.LT_WAKE.CAUSE 0 rule).wr F.LT_WAKE.MERGED 0 0).wr F.LT_WAKE.RESUMED 0 (flag meets)
    if link = .l0 then s
    else
      let s := s.wr F.LT_WAKE.PENDING 0 1
      if meets then s
      else if link = .l1 then s.emit .pmPme
      else (s.wr F.LT_WAKE.PIN 0 1).emit .wake

/-- WAKE_REQUEST. An asserted WAKE rule's request acts by the link's state; one that meets a host resume is held
(R531, R550, R551). -/
def execWakeRequest (rule : Nat) (link : LinkState) (resuming : Bool) (s : State) :
    Host.Outcome State Fault Refusal :=
  if s.lt.wakeDue.contains rule then
    .next (wakeRequest (s.setLt (fun l => { l with wakeDue := l.wakeDue.filter (· != rule) })) rule link
      (resuming || s.lt.resuming))
  else .next s

/-- LINK_L0. The link has reached L0: a pending request is cleared, WAKE# released (R550, R551). -/
def execLinkL0 (s : State) : Host.Outcome State Fault Refusal :=
  .next (((s.setLt (fun l => { l with resuming := false })).wr F.LT_WAKE.PENDING 0 0).wr F.LT_WAKE.PIN 0 0)

/-- HOST_RESUME. The host begins a link exit (R551). -/
def execHostResume (s : State) : Host.Outcome State Fault Refusal :=
  .next (s.setLt (fun l => { l with resuming := true }))

/-! ### Rules (R529 to R531, R534) -/

/-- The filtered value of a rule over its last N samples (R529). -/
def filtered (filter : Nat) (xs : List Int) : Int :=
  match filter with
  | 0 => (xs.foldl (· + ·) 0).tdiv xs.length
  | 1 => (xs.mergeSort (fun a b => decide (a ≤ b))).getD ((xs.length - 1) / 2) 0
  | 2 => xs.foldl min (xs.headD 0)
  | _ => xs.foldl max (xs.headD 0)

def ruleAt (s : State) (i : Nat) : RuleSt := Sparse.get ⟨0, none, none⟩ s.lt.rules i

def State.setRule (s : State) (i : Nat) (r : RuleSt) : State :=
  s.setLt (fun l => { l with rules := Sparse.set ⟨0, none, none⟩ l.rules i r })

def setAsserted (s : State) (i : Nat) (on : Bool) : State :=
  s.wr F.LT_RULE_STAT.ASSERTED (i / 64) (setBit (s.rd F.LT_RULE_STAT.ASSERTED (i / 64)) (i % 64) on)

/-- What a rule's assertion does (R531). -/
def assertEffect (s : State) (i : Nat) (f : Int) : State :=
  match s.rd F.LT_RULE.ACTION i with
  | 2 => (s.wr F.LT_POWER.REQ 0 (s.rd F.LT_RULE.PARAM i)).setLt (fun l => { l with blocked := false })
  | 3 => s.setLt (fun l => { l with wakeDue := l.wakeDue ++ [i] })
  | 5 => logEntry s 1 0 i f
  | 6 => s.raise 1
  | 7 => if s.clk.diesOn then sealFresco s else logEntry s 1 0 i f
  | _ => s

/-- What a rule's release does (R531). -/
def releaseEffect (s : State) (i : Nat) (f : Int) : State :=
  match s.rd F.LT_RULE.ACTION i with
  | 5 => logEntry s 2 0 i f
  | 7 => if s.clk.diesOn then releaseSeal s else s
  | _ => s

/-- A time of failure at or after which HOLD has not yet passed keeps a condition from counting (R530). -/
def heldLong (s : State) (i : Nat) (bad : Option Nat) : Bool :=
  match bad with
  | some t => decide (t + s.rd F.LT_RULE.HOLD i * 100000 < s.clk.lath)
  | none => true

/-- One rule at a sample of its channel: it asserts or releases when its condition has held for HOLD (R530). -/
def ruleSample (s : State) (i : Nat) : State :=
  let now := s.clk.lath
  let r := ruleAt s i
  let r := { r with samples := r.samples + 1 }
  let n := s.rd F.LT_RULE.N i
  let xs := Sparse.get [] s.lt.history (s.rd F.LT_RULE.CHAN i)
  if r.samples < n ∨ xs.length < n then s.setRule i { r with bad := some now, relBad := some now }
  else
    let f := filtered (s.rd F.LT_RULE.FILTER i) (xs.take n)
    let th := signed 32 (s.rd F.LT_RULE.THRESH i)
    let hy : Int := s.rd F.LT_RULE.HYST i
    let below := s.on F.LT_RULE.BELOW i
    let cond := if below then decide (f < th) else decide (th < f)
    let rel := if below then decide (th + hy < f) else decide (f < th - hy)
    let r := { r with
      bad := if cond then r.bad else some now
      relBad := if rel then r.relBad else some now }
    let s := s.setRule i r
    if ruleAsserted s i then
      if rel && heldLong s i r.relBad then releaseEffect (setAsserted s i false) i f else s
    else if cond && heldLong s i r.bad then assertEffect (setAsserted s i true) i f else s

/-- A write to a rule: it is released with its old action's release effect, and starts again (R530). -/
def restartRule (s : State) (i : Nat) : State :=
  let last := s.lt.sampledAt.find? (fun e => e.1 == s.rd F.LT_RULE.CHAN i)
  let s := if ruleAsserted s i then releaseEffect (setAsserted s i false) i 0 else s
  s.setRule i ⟨0, last.map (·.2), last.map (·.2)⟩

/-! ### Fixed protections (R533) -/

/-- The last sample of temperature sensor `k`, in m°C. -/
def sensor (s : State) (k : Nat) : Option Int := (s.lt.sources.find? (fun e => e.1 == 21 + k)).map (·.2)

def sensorAtLeast (s : State) (v : Int) (k : Nat) : Bool :=
  match sensor s k with
  | some x => decide (v ≤ x)
  | none => false

def sensorAbove (s : State) (v : Int) (k : Nat) : Bool :=
  match sensor s k with
  | some x => decide (v < x)
  | none => false

/-- Sensors of a die: Henig 4 to 11, Varton 12 to 19. -/
def dieSensors (d : Nat) : List Nat := (List.range 8).map (4 + 8 * d + ·)

/-- Level 15 on a die from 105 °C until every sensor of it reads at or below 100 °C. -/
def dieProtect (s : State) (d : Nat) : State :=
  let hot := (dieSensors d).any (sensorAtLeast s 105000) ||
    (Sparse.get false s.lt.dieHot d && (dieSensors d).any (sensorAbove s 100000))
  s.setLt (fun l => { l with dieHot := Sparse.set false l.dieHot d hot })

/-- The ceiling of DORMANT after 10 ms at or above 110 °C, until 60 s at or below 95 °C. -/
def ceilingProtect (s : State) : State :=
  let now := s.clk.lath
  let past := if (List.range 24).any (sensorAtLeast s 110000) then s.lt.overSince.orElse (fun _ => some now) else none
  let cool := if (List.range 24).any (sensorAbove s 95000) then none else s.lt.coolSince.orElse (fun _ => some now)
  let since (t : Option Nat) (d : Nat) : Bool := match t with
    | some x => decide (x + d ≤ now)
    | none => false
  let up := since past 10000000 || (s.lt.ceiling && !since cool 60000000000)
  s.setLt (fun l => { l with overSince := past, coolSince := cool, ceiling := up })

/-- STACK_THROTTLE_STEP. A stack at or above 93 °C is throttled by one level more each 10 ms, one at or below 90 °C by
one less each 100 ms (R533). -/
def execStackThrottleStep (stack : Nat) (s : State) : Host.Outcome State Fault Refusal :=
  if !s.lt.running ∨ 3 ≤ stack then .next s
  else
    let l := Sparse.get 0 s.lt.stackLevel stack
    let last := Sparse.get 0 s.lt.stackStep stack
    let step (s : State) (wait v : Nat) : State :=
      let s := reachLath s (last + wait)
      syncLath (s.setLt (fun x => { x with
        stackLevel := Sparse.set 0 x.stackLevel stack v, stackStep := Sparse.set 0 x.stackStep stack s.clk.lath }))
    if sensorAtLeast s 93000 (20 + stack) then .next (if l < 15 then step s 10000000 (l + 1) else s)
    else if (sensor s (20 + stack)).isSome ∧ sensorAbove s 90000 (20 + stack) = false ∧ 0 < l then
      .next (step s 100000000 (l - 1))
    else .next s

/-! ### Samples (R528) -/

/-- ns between samples at a RATE. -/
def samplePeriod (rate : Nat) : Nat := 100000000 / 10 ^ rate

/-- ADC_SAMPLE. A channel takes a sample: the rules on it are evaluated in rule order, then the protections
(R528, R529, R533, R534). -/
def execAdcSample (channel : Nat) (value : Int) (s : State) : Host.Outcome State Fault Refusal :=
  if !s.lt.running ∨ 32 ≤ channel then .next s
  else
    let v := unsigned 32 value
    let s := match s.lt.sampledAt.find? (fun e => e.1 == channel) with
      | some e => reachLath s (e.2 + samplePeriod (s.rd F.LT_CHAN.RATE channel))
      | none => s
    let src := s.rd F.LT_CHAN.SOURCE channel
    let x := signed 32 v
    let s := s.wr F.LT_CHAN.LAST channel v
    let s := s.setLt (fun l => { l with
      history := Sparse.upd [] l.history channel (fun h => (x :: h).take 1024)
      sampledAt := Sparse.put l.sampledAt channel (some s.clk.lath)
      sources := Sparse.put l.sources src (some x) })
    let s := if src = 0 then s.wr F.LT_SUPPLY.VIN_MV 0 (min x.toNat 65535)
      else if src = 1 then s.wr F.LT_SUPPLY.VAUX_MV 0 (min x.toNat 65535) else s
    let s := ((List.range 256).filter (fun i =>
      s.on F.LT_RULE.EN i && s.rd F.LT_RULE.CHAN i == channel)).foldl ruleSample s
    .next (syncLath (ceilingProtect (dieProtect (dieProtect s 0) 1)))

/-- A write has changed a channel's SOURCE or RATE: its history is cleared (R528). -/
def clearChannel (s : State) (c : Nat) : State :=
  s.setLt (fun l => { l with history := Sparse.set [] l.history c [] })

/-! ### Slices and ports powered down (R538 to R540) -/

def sliceDown (s : State) (n : Nat) : Option SliceDown := Sparse.get none s.lt.sliceDown n

def State.setSliceDown (s : State) (n : Nat) (d : Option SliceDown) : State :=
  s.setLt (fun l => { l with sliceDown := Sparse.set none l.sliceDown n d })

/-- A slice begins to power down: dispatch to it stops, its position is left empty, and no spare takes it (R538). -/
def powerDownSlice (s : State) (n : Nat) : State :=
  if (sliceDown s n).isSome then s
  else
    let serves := svState s n == 0 || svState s n == 1
    let s := s.setSliceDown n (some ⟨s.clk.ns, false, serves⟩)
    let s := if serves then (s.setSv n 3).wr F.SY_SVC_UNIT.STANDS_FOR n 63 else s
    syncActive { s with hn := { s.hn with
      active := s.hn.active.map (fun p => if p = some n then none else p)
      spare := if s.hn.spare = some n then none else s.hn.spare } }

/-- SLICE_POWER_DOWN. The SLICE_OFF bit of a slice has become 1 (R538). -/
def execSlicePowerDown (slice : Nat) (s : State) : Host.Outcome State Fault Refusal :=
  if s.clk.diesOn ∧ slice < 17 ∧ bitAt (s.rd F.LT_DOMAIN.SLICE_OFF 0) slice = true then .next (powerDownSlice s slice)
  else .next s

/-- The packets that a slice still holds: in its threads, its queue, and waiting for a handler. -/
def slicePackets (s : State) (n : Nat) : List Job :=
  let held := s.hn.threads.filterMap (fun e =>
    let core := (unpair e.1).1
    if n * 24 ≤ core ∧ core < n * 24 + 24 then e.2.job else none)
  held ++ (s.slice n).handlers ++ (s.slice n).queue

/-- A slice becomes unpowered: what it still holds is discarded, and its memories are lost (R538). -/
def unpowerSlice (s : State) (n : Nat) : State :=
  match sliceDown s n with
  | none => s
  | some d =>
    if d.unpowered then s
    else
      let jobs := slicePackets s n
      let s := jobs.foldl (fun s j =>
        retireJob (if j.shadow.isSome then s else s.count 1152 (some (sideObj j.side j.obj)) 1 j.pkt.attr) j false) s
      let mine (k : Nat) : Bool := decide (n * 24 ≤ (unpair k).1 ∧ (unpair k).1 < n * 24 + 24)
      let s := (clearSliceMemory s n).setSlice n SliceSt.init
      let lost (c : Coat) : Coat := { c with
        code := c.code.filter (fun e => (unpair e.1).1 != n), codeBad := c.codeBad.filter (fun e => (unpair e.1).1 != n) }
      { (s.setSliceDown n (some { d with unpowered := true })) with
        hn := { s.hn with
          threads := s.hn.threads.filter (fun e => !mine e.1)
          chans := s.hn.chans.filter (fun e => !mine e.1)
          reqs := s.hn.reqs.filter (fun r => match r.tid with
            | .packet k _ _ => k != n
            | .steward .. => true) }
        coat := { s.coat with slotA := lost s.coat.slotA, slotB := lost s.coat.slotB } }

/-- SLICE_POWER_DOWN_TIMEOUT. 20 µs after its power-down the slice is unpowered (R538). -/
def execSlicePowerDownTimeout (slice : Nat) (s : State) : Host.Outcome State Fault Refusal :=
  match sliceDown s slice with
  | some d => .next (if d.unpowered then s else unpowerSlice (reachTime s (d.since + 20000)) slice)
  | none => .next s

/-- A slice comes back: its memories are tested and loaded, and it takes an empty position, or is the spare
(R539). -/
def powerUpSlice (s : State) (n : Nat) (ok : Bool) : State :=
  match sliceDown s n with
  | none => s
  | some d =>
    let s := (unpowerSlice s n).setSliceDown n none
    if !d.returns then s else if ok then admitSlice (loadSlice s n) n else failUnit s n

/-- SLICE_POWER_UP. The SLICE_OFF bit of a powered-down slice has returned to 0 (R539). -/
def execSlicePowerUp (slice : Nat) (bistOk : Bool) (s : State) : Host.Outcome State Fault Refusal :=
  let returning := match s.lt.transition with
    | some (.fromHoldover _) => true
    | _ => !lanesLeaving s
  if s.clk.diesOn ∧ bitAt (s.rd F.LT_DOMAIN.SLICE_OFF 0) slice = false ∧ returning = true then
    .next (powerUpSlice s slice bistOk)
  else .next s

/-- Local destinations that go with port `n`: itself, and the clients of its groups. -/
def portDests (s : State) (n : Nat) : List Nat :=
  n :: ((List.range 128).filter (fun c => match clientGroup s c with
    | some g => (groupPorts s g).contains n
    | none => false)).map (32 + ·)

/-- PORT_OFF bits have changed: ports and their clients drain, or return (R540). -/
def portOffEffect (s : State) (was : Nat) : State :=
  let now := s.rd F.LT_DOMAIN.PORT_OFF 0
  if !s.clk.diesOn || lanesLeaving s then s
  else (List.range 32).foldl (fun s n =>
    if bitAt now n && !bitAt was n then (portDests s n).foldl powerDownDest s
    else if bitAt was n && !bitAt now n then
      (portDests s n).foldl (fun s d =>
        if d < 32 then powerUpDest s d
        else match clientGroup s (d - 32) with
          | some g => if (groupPorts s g).any (bitAt now ·) then s else powerUpDest s d
          | none => s) s
    else s) s

/-! ### The dies in reset -/

/-- Registers that keep their words while the dies are in reset: those of the Lath, and the states of units. -/
def keepsWords : Reg → Bool
  | .LT_LIFE_HEAD => true
  | .LT_SUPPLY => true
  | .LT_CHAN => true
  | .LT_RULE => true
  | .LT_RULE_STAT => true
  | .LT_THROTTLE => true
  | .LT_EVLOG_HEAD => true
  | .LT_POWER => true
  | .LT_DOMAIN => true
  | .LT_HOLDOVER => true
  | .LT_WAKE => true
  | .LT_BOOT => true
  | .SY_SVC_UNIT => true
  | .SY_HALLMARK => true
  | _ => false

/-- A slice that was only powered down is not out of service (R493, R538). -/
def slicesKept (s : State) : State :=
  (List.range 17).foldl (fun s n =>
    match sliceDown s n with
    | some d => if d.returns then s.setSv n 0 else s
    | none => s) s

/-- The dies go into reset: what they, the stacks and the endpoint hold is lost (R545). Flash, the capture targets,
the Lath and host memory keep theirs; repaired rows, retired channels and training records are in flash. -/
def diesOff (s : State) : State :=
  let kept := (allRegs.filter keepsWords).map Reg.code
  let s := slicesKept s
  { s with
    clk := { s.clk with diesOn := false, ns := 0, ptp := 0, ptpFrac := 0 }
    csr := s.csr.filter (fun e => kept.contains (unpair (unpair e.1).1).1)
    host := { HostSt.reset with mem := s.host.mem }
    cnt := { CounterSt.reset with lathStore := s.cnt.lathStore }
    coat := CoatSt.reset
    hn := HenigSt.reset
    lk := LookupSt.reset
    bm := BufferSt.reset
    q := QueueSt.reset
    fb := FabricSt.reset
    tn := TwinSt.reset
    fr := { FrescoSt.reset with stored := s.fr.stored, sram := s.fr.sram, flash := s.fr.flash }
    tw := TrowelSt.reset
    hb := { HbmSt.reset with
      repaired := s.hb.repaired, records := s.hb.records, yielded := s.hb.yielded }
    pt := PortsSt.reset
    sv := { SvcSt.reset with colUsed := s.sv.colUsed }
    lt := { s.lt with
      rails := 0, raising := false, transition := none, loaded := .none, started := [], standingDue := false
      standingStaged := false, held := false, rootPower := false, sliceDown := [] } }

/-! ### Supplies (R522 to R524) -/

/-- VIN_VALID. After an overvoltage VIN must first have stood at or below 45 V for 1 s (R522, R524, R526). -/
def execVinValid (s : State) : Host.Outcome State Fault Refusal :=
  if s.lt.overvolt ∧ s.on F.LT_SUPPLY.SURGE 0 = true then .next s
  else
    let s := if s.lt.overvolt then reachLath s (s.lt.calmAt + 1000000000) else s
    .next ((s.wr F.LT_SUPPLY.VIN_VALID 0 1).setLt (fun l => { l with blocked := false, overvolt := false }))

/-- Every rail is disabled at once: the module is Dormant. -/
def dropVin (s : State) : State :=
  let s := (s.wr F.LT_SUPPLY.VIN_VALID 0 0).wr F.LT_SUPPLY.LOW 0 0
  let was := powerState s
  let s := diesOff s
  if was = 1 then s.wr F.LT_POWER.BUSY 0 0 else enterPower s 1

/-- VIN_LOSS (R524). -/
def execVinLoss (s : State) : Host.Outcome State Fault Refusal :=
  if !s.on F.LT_SUPPLY.VIN_VALID 0 then .next s
  else if !s.lt.running then .next (dropVin s)
  else .next (dropVin (logPlain (s.updLife (fun l => { l with vinLoss := l.vinLoss + 1 })) 3 1))

/-- VIN_LOW. VIN falls below 5.5 V while valid, or is back (R524). -/
def execVinLow (low : Bool) (s : State) : Host.Outcome State Fault Refusal :=
  if !s.lt.running ∨ s.on F.LT_SUPPLY.VIN_VALID 0 = false then .next s
  else if low && !s.on F.LT_SUPPLY.LOW 0 then
    .next (logPlain ((s.wr F.LT_SUPPLY.LOW 0 1).updLife (fun l => { l with vinLow := l.vinLow + 1 })) 3 2)
  else .next (s.wr F.LT_SUPPLY.LOW 0 (flag low))

/-- VIN_SURGE. VIN rises above 45 V within the surge limits, or is back (R524). -/
def execVinSurge (above : Bool) (s : State) : Host.Outcome State Fault Refusal :=
  if !s.lt.running then .next s
  else if above && !s.on F.LT_SUPPLY.SURGE 0 then
    .next (logPlain ((s.wr F.LT_SUPPLY.SURGE 0 1).updLife (fun l => { l with vinSurge := l.vinSurge + 1 })) 3 3)
  else
    let s := if above then s else s.setLt (fun l => { l with calmAt := s.clk.lath })
    .next (s.wr F.LT_SUPPLY.SURGE 0 (flag above))

/-- VIN_OVERVOLTAGE. As VIN loss; an excursion that was already counted as a surge is not counted again (R524,
R518). -/
def execVinOvervoltage (s : State) : Host.Outcome State Fault Refusal :=
  if !s.lt.running then .next s
  else
    let counted := s.on F.LT_SUPPLY.SURGE 0
    let s := (s.wr F.LT_SUPPLY.SURGE 0 1).updLife (fun l =>
      { l with vinSurge := if counted then l.vinSurge else l.vinSurge + 1 })
    .next (dropVin (logPlain (s.setLt (fun l => { l with overvolt := true })) 3 4))

/-- VAUX_VALID. The Lath may start (R522, R523). -/
def execVauxValid (s : State) : Host.Outcome State Fault Refusal := .next (s.setLt (fun l => { l with vaux := true }))

/-- VAUX_LOSS. The Lath stops and the module is Off: what the Lath held in SRAM is lost (R523, R524, R535). -/
def execVauxLoss (s : State) : Host.Outcome State Fault Refusal :=
  if !s.lt.vaux then .next s
  else
    let vin := s.rd F.LT_SUPPLY.VIN_VALID 0
    let s := diesOff s
    let flash : Reg → Bool := fun r => r = .LT_RULE ∨ r = .LT_LIFE_HEAD ∨ r = .SY_SVC_UNIT ∨ r = .SY_HALLMARK
    let kept := (allRegs.filter flash).map Reg.code
    let s := { s with csr := s.csr.filter (fun e => kept.contains (unpair (unpair e.1).1).1) }
    .next { (s.wr F.LT_SUPPLY.VIN_VALID 0 vin) with
      clk := { s.clk with lath := 0 }
      cnt := { s.cnt with lathStore := [] }
      fr := { s.fr with sram := none }
      lt := { LathSt.reset with
        life := s.lt.life, calendar := s.lt.calendar, vauxLost := s.lt.vauxLost + 1, lifeRing := s.lt.lifeRing
        phaseSub := s.lt.phaseSub, standing := s.lt.standing, holdover := s.lt.holdover } }

/-- LATH_START. The Lath runs: it has loaded the life record, the rule table and the capture record, and sampled its
address straps (R523, R555, R584). -/
def execLathStart (straps : Nat) (s : State) : Host.Outcome State Fault Refusal :=
  if !s.lt.vaux ∨ s.lt.running = true then .next s
  else
    let lost := s.lt.vauxLost
    let s := { s with clk := { s.clk with lath := 0, lifeBase := s.lt.calendar }, fr := { s.fr with sram := s.fr.flash } }
    let s := s.updLife (fun l => { l with vauxLoss := l.vauxLoss + lost })
    let s := s.setLt (fun l => { l with running := true, vauxLost := 0, hourAt := 0, straps := straps % 4 })
    .next (if lost = 0 then s else logPlain s 3 5)

/-- LOCKSTEP_RESET. A mismatch resets the Lath with the rails held; it resumes and logs it (R524). -/
def execLockstepReset (s : State) : Host.Outcome State Fault Refusal :=
  .next (if s.lt.running then logPlain s 6 0 else s)

/-- XTAL_FAIL. The crystal has stopped (LT_SUPPLY). -/
def execXtalFail (s : State) : Host.Outcome State Fault Refusal :=
  .next (if s.lt.running then s.wr F.LT_SUPPLY.XTAL_FAIL 0 1 else s)

/-! ### Rails (R525, R526) -/

/-- The rails start to rise, from the first. -/
def raiseRails (s : State) : State := s.setLt (fun l => { l with rails := 0, raising := true })

/-- RAIL_IN_REGULATION. A rail is in regulation and the next one starts (R525). -/
def execRailInRegulation (rail : Nat) (s : State) : Host.Outcome State Fault Refusal :=
  if s.lt.raising ∧ rail = s.lt.rails then
    .next (s.setLt (fun l => { l with rails := rail + 1, raising := decide (rail + 1 < 9) }))
  else .next s

/-- RAIL_TIMEOUT. A rail is not in regulation within 10 ms: the start ends and the module is Dormant (R526). -/
def execRailTimeout (rail : Nat) (s : State) : Host.Outcome State Fault Refusal :=
  if s.lt.raising ∧ rail = s.lt.rails then
    let s := lifeEvent (diesOff s) 14 rail 0
    .next ((s.setLt (fun l => { l with blocked := true })).wr F.LT_POWER.BUSY 0 0)
  else .next s

/-! ### Transitions (R537, R543 to R547) -/

/-- Slices that stay powered in Holdover: the lowest-numbered one of the active list that is IN_SERVICE (R541). -/
def holdoverSlice (s : State) : Option Nat :=
  (List.range 17).find? (fun n => s.hn.active.contains (some n) && svState s n == 0)

/-- At t0 of an entry to Holdover: units begin to power down, and Fresco seals its open segment (R543). -/
def enterHoldover (s : State) : State :=
  let keep := holdoverSlice s
  let s := ((List.range 17).filter (fun n => keep != some n)).foldl powerDownSlice s
  let off := (List.range 32).filter (fun n => !s.on F.PT_PORT.HOLDOVER n)
  let s := (off.flatMap (portDests s)).foldl powerDownDest s
  sealOpen (powerDownDest s 160) 4

/-- At t0 of an entry to Dormant: every destination drains, and Fresco seals (R545). -/
def enterDormant (s : State) : State := sealOpen ((List.range 256).foldl powerDownDest s) 4

/-- At t0 of a return from Holdover: the stacks are released and the power switches close (R544), and a standing coat that stands staged begins
its recoat (R547); a recoat that runs already is the one to it. -/
def leaveHoldover (s : State) : State :=
  let s := (releaseStack (releaseStack s 0) 1).setLt (fun l => { l with rootPower := true })
  if s.lt.standingStaged && !recoating s then
    { (s.wr F.SY_COAT_STATUS.STATE 0 1) with
      coat := { s.coat with recoatBy := none }, lt := { s.lt with standingStaged := false } }
  else s

/-- A transition begins. -/
def beginTransition (s : State) (t : Transition) : State :=
  lanesChanged ((s.setLt (fun l => { l with transition := some t })).wr F.LT_POWER.BUSY 0 1)

/-- The transition from a state to a target. -/
def transitTo (s : State) (st target : Nat) : State :=
  let t0 := s.clk.lath
  match st with
  | 1 =>
    if s.lt.blocked then s
    else raiseRails (beginTransition s (if target = 2 then .dormantToHoldover t0 else .start t0))
  | 2 =>
    if target = 1 then enterDormant (beginTransition s (.toDormant t0))
    else if s.lt.standingDue then s
    else leaveHoldover (beginTransition s (.fromHoldover t0))
  | _ =>
    if target = 1 then enterDormant (beginTransition s (.toDormant t0))
    else if target = 2 then enterHoldover (beginTransition s (.toHoldover t0))
    else enterPower s target

/-- POWER_TRANSITION. The target differs from the state and no transition runs: the Lath begins the transition
(R537). -/
def execPowerTransition (s : State) : Host.Outcome State Fault Refusal :=
  let st := powerState s
  let target := powerTarget s
  if s.lt.running ∧ s.lt.transition = none ∧ st ≠ target then .next (transitTo s st target) else .next s

/-- No destination drains. -/
def drained (s : State) : Bool := (List.range 256).all (fun d => powerOf s d != 1)

/-- E of an entry: the drains are complete, and the sealed segments durable or FLUSH_MS passed (R543). -/
def reachE (s : State) (t0 : Nat) : State :=
  if s.fr.segs.isEmpty then s else reachLath s (t0 + s.rd F.LT_HOLDOVER.FLUSH_MS 0 * 1000000)

/-- A packet's buffer lies in a stack. -/
def inStackHome (s : State) (x : Queued) : Bool :=
  decide (x.handle < 2 ^ 33 - 1) && s.rd F.VT_POOL_GEOM.HOME (handlePool x.handle) != 0

/-- Discard the packets of one queue that lie in home 1 or 2 (R543). -/
def holdoverDiscard (s : State) (q : QueueId) : State :=
  let l := queueList s q
  let gone := l.filter (inStackHome s)
  gone.foldl (fun s x => releaseBuf (s.count 1154 (some (queueObj q)) 1 x.pkt.attr) x.handle)
    (s.setQueue q (l.filter (fun x => !inStackHome s x)))

/-- Stacks A and B are held in self-refresh (R454). -/
def holdStacks (s : State) : State :=
  [0, 1].foldl (fun s st => if hbState s st = 2 ∨ hbState s st = 3 then s.wr F.HB_STATUS.STATE st 4 else s) s

/-- Fabric and twin lanes are DOWN (R541, R543). -/
def lanesDown (s : State) : State :=
  (List.range 48).foldl (fun s k => laneLeaves s k 0) s

/-- Steward cores 1 and 2 of each die are unpowered (R541). -/
def stopStewards (s : State) : State :=
  let gone (k : Nat) : Bool :=
    let core := (unpair k).1
    decide (408 ≤ core) && ((core - 408) % 4 == 1 || (core - 408) % 4 == 2)
  { s with hn := { s.hn with
      threads := s.hn.threads.filter (fun e => !gone e.1)
      lmem := s.hn.lmem.filter (fun e => !gone e.1)
      chans := s.hn.chans.filter (fun e => !gone e.1) } }

/-- Banks 4 to 31 are out of service (R541). -/
def banksOut (s : State) : State := ((List.range 28).map (4 + ·)).foldl (fun s b => setOos s b true) s

/-- The direct-stage replica that stays powered in Holdover: that of the slice which does (R541). -/
def heldReplica (s : State) : Nat := replicaOf ((s.hn.active.findSome? id).getD 0)

/-- The other replicas are unpowered (R541). -/
def replicasOut (s : State) : State :=
  { s with lk := { s.lk with stages := s.lk.stages.filter (fun e => e.1 % 4 == heldReplica s) } }

/-- The other replicas reload from the one that stayed powered (R544). -/
def replicasBack (s : State) : State :=
  let kept := s.lk.stages.filter (fun e => e.1 % 4 == heldReplica s)
  { s with lk := { s.lk with stages := kept.foldl (fun m e =>
    (List.range 4).foldl (fun m r => Sparse.set [] m (e.1 / 4 * 4 + r) e.2) m) [] } }

/-- What Holdover leaves unpowered is switched off (R541): the root ports and Fresco too, whose segments that are not
durable stay in staging, to be written again (R543). -/
def switchOff (s : State) : State :=
  let s := replicasOut ((List.range 17).foldl unpowerSlice s)
  let s := stagingWaits (stopStewards (banksOut (lanesDown (holdStacks s))))
  s.setLt (fun l => { l with held := true, rootPower := false })

/-- HOLDOVER_ENTRY_DRAIN_END. E of an entry to Holdover is reached (R543). -/
def execHoldoverEntryDrainEnd (s : State) : Host.Outcome State Fault Refusal :=
  match s.lt.transition with
  | some (.toHoldover t0) =>
    if !drained s then .next s
    else
      let s := reachE s t0
      let s := s.q.voqs.foldl (fun s e => holdoverDiscard s (.voq e.1)) s
      let s := s.q.eqs.foldl (fun s e => holdoverDiscard s (.eq e.1)) s
      .next (enterPower (switchOff s) 2)
  | _ => .next s

/-- DORMANT_ENTRY. E of an entry to Dormant is reached: the dies are held in reset and the rails go down (R545). -/
def execDormantEntry (s : State) : Host.Outcome State Fault Refusal :=
  match s.lt.transition with
  | some (.toDormant t0) => if drained s then .next (enterPower (diesOff (reachE s t0)) 1) else .next s
  | _ => .next s

/-- A steward thread that holds no slot starts at the active coat's start word, and holds the active slot (R118, R177). -/
def startSteward (s : State) (die core t : Nat) : State :=
  let a := Sparse.get 0xFFFFFFFF (coatOf s (activeSlot s)).starts ((die * 4 + core) * 16 + t)
  if a = 0xFFFFFFFF ∨ (s.thread (.steward die core t)).held ≠ none then s
  else s.setThread (.steward die core t)
    { Thread.init with pc := a % 65536, run := .running, held := some (activeSlot s) }

/-- The steward threads of some cores of both dies start. -/
def startCores (s : State) (cores : List Nat) : State :=
  [0, 1].foldl (fun s die => cores.foldl (fun s core =>
    (List.range 16).foldl (fun s t => startSteward s die core t) s) s) s

/-- Steward cores of a die that are powered (R541). -/
def poweredCores (s : State) : List Nat := if s.lt.held then [0, 3] else [0, 1, 2, 3]

/-- Banks 4 to 31 reload from the entry master, and those not retired return to service (R544, R500). The writes that
stand in their queues bring what the reload has brought. -/
def banksBack (s : State) : State :=
  let high (a : Nat) : Bool := decide (4 * 8192 ≤ a)
  let s := { s with lk := { s.lk with
    assocBank := s.lk.assocBank.filter (fun e => !high e.1) ++ s.lk.assoc.filter (fun e => high e.1)
    updates := s.lk.updates.map (fun e =>
      if 4 ≤ e.1 then (e.1, e.2.map (fun w => { w with entry := assocEntry s (e.1 * 8192 + w.index) })) else e) } }
  ((List.range 28).map (4 + ·)).foldl (fun s b =>
    if svState s (32 + b) = 0 ∨ 64 ≤ bankUnit s b then setOos s b false else s) s

/-- A fabric lane with EN = 1 that is not out of service trains (R340). -/
def trainLanes (s : State) : State :=
  (List.range 48).foldl (fun s k =>
    if s.on F.FB_LINK.EN k && svState s (96 + k) == 0 && laneState s k == 0 then s.wr F.FB_LINK.STATE k 1 else s) s

/-! ### The endpoint's training (R549, R551) -/

/-- PERST_DEASSERT. The endpoint trains; it is a host resume (R549, R551). -/
def execPerstDeassert (s : State) : Host.Outcome State Fault Refusal :=
  if s.host.endpoint = .inReset then
    .next { s with host := { s.host with endpoint := .training }, lt := { s.lt with resuming := true } }
  else .next s

/-- ENDPOINT_READY. The endpoint has trained (R549). -/
def execEndpointReady (s : State) : Host.Outcome State Fault Refusal :=
  if s.host.endpoint = .training ∧ s.clk.diesOn = true then
    .next { s with host := { s.host with endpoint := .ready } }
  else .next s

/-! ### The hourly record (R518, R520) -/

/-- Bin of THERMAL for a temperature in m°C. -/
def thermalBin (t : Int) : Nat :=
  if t < -35000 then 0 else if 105000 ≤ t then 29 else ((t + 40000) / 5000).toNat

/-- LIFE_RECORD_HOURLY. An hour has passed: the calendar, hours and histogram go to flash. -/
def execLifeRecordHourly (s : State) : Host.Outcome State Fault Refusal :=
  if !s.lt.running then .next s
  else
    let s := reachLath s (s.lt.hourAt + 3600000000000)
    let case_ := (List.range 4).filterMap (sensor s)
    let s := s.updLife (fun l => { l with
      onHours := if 2 ≤ powerState s then l.onHours + 1 else l.onHours
      thermal := match case_ with
        | [] => l.thermal
        | x :: xs => Sparse.upd 0 l.thermal (thermalBin (xs.foldl max x)) (· + 1) })
    .next (s.setLt (fun l => { l with calendar := lifeSeconds s, hourAt := s.clk.lath }))

end Sys2Proof.Machine
end

