-- ==== Sys2Proof/Machine/Bar2.lean ====
section
/-! DEFINITION. The staged coat as BAR2 and system space 0x05 show it: code memories, classification region, table
aperture (R55, R179, R180, R235 to R239), and the status of images (R54). -/

namespace Sys2Proof.Machine

/-! ### SY_IMAGE_STATUS (R46, R53, R54) -/

def imageState (s : State) : Nat := s.rd F.SY_IMAGE_STATUS.STATE 0

/-- SERVICE_READY is set; a change of it raises source 4 too (R46). -/
def setService (s : State) (on : Bool) : State :=
  if s.on F.SY_IMAGE_STATUS.SERVICE_READY 0 = on then s
  else (s.wr F.SY_IMAGE_STATUS.SERVICE_READY 0 (flag on)).raise 4

/-- STATE and SECTION are set; a change raises source 4 (R46). -/
def setImage (s : State) (st section_ : Nat) : State :=
  if imageState s = st ∧ s.rd F.SY_IMAGE_STATUS.SECTION 0 = section_ then s
  else ((s.wr F.SY_IMAGE_STATUS.STATE 0 st).wr F.SY_IMAGE_STATUS.SECTION 0 section_).raise 4

/-- A staged change other than an image is complete (R54). -/
def markStaged (s : State) : State :=
  if imageState s = 0 ∨ imageState s = 2 ∨ imageState s = 6 then setImage s 2 0 else s

/-! ### Code words -/

/-- Packet code of one slice in a slot, and in its code master (R507), with correct parity. -/
def putPacketCode (c : Coat) (n a : Nat) (w : BitVec 32) : Coat :=
  { c with
    code := Sparse.set 0 c.code (pairKey n a) w
    codeBad := Sparse.set false c.codeBad (pairKey n a) false
    master := Sparse.set 0 c.master a w }

/-- Steward code of core `k`, which is 4 × die + core. -/
def putStewardCode (c : Coat) (k a : Nat) (w : BitVec 32) : Coat :=
  { c with
    steward := Sparse.set 0 c.steward (pairKey k a) w
    stewardBad := Sparse.set false c.stewardBad (pairKey k a) false }

/-! ### What BAR2 maps -/

/-- What stands at an 8-byte offset of BAR2. -/
inductive B2 where
  | code (n a : Nat)
  | steward (k a : Nat)
  | region (o : Nat)
  | desc (t w : Nat)
  | slot (home n w : Nat)
  | assoc (addr w : Nat)
  deriving DecidableEq, Repr

/-- The object at BAR2 offset `o`, a multiple of 8; `none` where nothing is mapped (R55, R179, R235). -/
def bar2At (s : State) (o : Nat) : Option B2 :=
  if o < 0x01100000 then
    if o % 0x100000 < 0x80000 then some (.code (o / 0x100000) (o % 0x100000 / 4)) else none
  else if 0x02000000 ≤ o ∧ o < 0x02200000 then
    some (.steward ((o - 0x02000000) / 0x40000) (o % 0x40000 / 4))
  else if 0x03000000 ≤ o ∧ o < 0x03100000 then
    if regionMapped (o - 0x03000000) then some (.region (o - 0x03000000)) else none
  else if 0x04000000 ≤ o ∧ o < 0x04020000 then some (.desc ((o - 0x04000000) / 32) (o % 32 / 8))
  else if 0x08000000 ≤ o ∧ o < 0x0C000000 then some (.slot 0 ((o - 0x08000000) / 32) (o % 32 / 8))
  else if 0x10000000 ≤ o ∧ o < 0x11000000 then some (.assoc ((o - 0x10000000) / 64) (o % 64 / 8))
  else if 0x20000000 ≤ o ∧ o < 0x30000000 then
    some (.slot 1 (8388608 * s.rd F.LK_TABLE_WIN.QUARTER 0 + (o - 0x20000000) / 32) (o % 32 / 8))
  else none

/-- The 32 bytes of a slot that holds `e`, its second half when `second` (R238, R239). -/
def slotBytes (e : Entry) (second : Bool) : List Byte :=
  bytesOfNibs (nibSlice e.key (if second then 32 else 0) 32) ++ leBytes 8 e.data.toNat ++ leBytes 2 e.ts ++
    leBytes 2 (e.table + e.coat * 2 ^ 12 + 2 ^ 14 + flag e.learned * 2 ^ 15) ++
    [BitVec.ofNat 8 (flag e.wide + 2 * flag second)] ++ leBytes 3 0

/-- A slot as the read-only apertures show it; a slot not in use reads 0. -/
def slotShown (s : State) (home n : Nat) : List Byte :=
  match entryAt s home n with
  | some e => slotBytes e false
  | none =>
    if n % 2 = 1 then
      match entryAt s home (n - 1) with
      | some e => if e.wide then slotBytes e true else leBytes 32 0
      | none => leBytes 32 0
    else leBytes 32 0

/-- Word 3 of a table descriptor (R223): USED of a table that fills all 2²⁵ slots of stack C reads 0 (log entry 149). -/
def descCounts (s : State) (t : Nat) : Nat := tblUsed s t % 2 ^ 25 + tblLearned s t % 2 ^ 25 * 2 ^ 32

/-- The 64 bits that an object of the staged coat reads as. -/
def bar2Word (s : State) (b : B2) : Nat :=
  let c := coatOf s (stagedSlot s)
  match b with
  | .code n a =>
    (Sparse.get 0 c.code (pairKey n a)).toNat + (Sparse.get 0 c.code (pairKey n (a + 1))).toNat * 2 ^ 32
  | .steward k a =>
    (Sparse.get 0 c.steward (pairKey k a)).toNat + (Sparse.get 0 c.steward (pairKey k (a + 1))).toNat * 2 ^ 32
  | .region o => regionWord c o
  | .desc t w => if w = 3 then descCounts s t else descWord s t w
  | .slot home n w => leAt (slotShown s home n) (8 * w) 8
  | .assoc addr w => bitsOf (assocEntry s addr).toNat (64 * w) 64

/-- A BAR2 write to bytes `b` on of an associative entry: bytes below 48 are held, byte 48 commits (R237). -/
def bar2Assoc (s : State) (addr b : Nat) (bs : List Byte) : State :=
  let kept : List (Nat × Byte) := match s.lk.heldEntry with
    | some (a, l) => if a = addr then l else []
    | none => []
  let s := match s.lk.heldEntry with
    | some (a, _) => if a = addr then s else { s with lk := { s.lk with heldEntry := none } }
    | none => s
  let new := (List.range bs.length).map (fun i => (b + i, bs.getD i 0))
  if b < 48 then
    let l := (kept.filter (fun e => !new.any (fun x => x.1 == e.1))) ++ new.filter (fun x => decide (x.1 < 48))
    { s with lk := { s.lk with heldEntry := some (addr, l) } }
  else if b = 48 then
    let old := leBytes 64 (assocEntry s addr).toNat
    let put (l : List Byte) (e : Nat × Byte) : List Byte := setAt l e.1 e.2
    let e := (kept ++ new.filter (fun x => decide (x.1 < 56))).foldl put old
    let s := { s with lk := { s.lk with heldEntry := none } }
    (assocStaged s addr (BitVec.ofNat 512 (leNat e)) none).1
  else s

/-- Apply `f` to the 32-bit halves of 8 bytes that `n` bytes from byte `b` touch. -/
def twoWords (b n : Nat) (f : Coat → Nat → Coat) (c : Coat) : Coat :=
  let c := if b < 4 ∧ 0 < n then f c 0 else c
  if 4 < b + n then f c 1 else c

/-- Bytes written from byte `b` (0 to 7) of an object of the staged coat (R55, R182, R236, R237). -/
def bar2Put (s : State) (x : B2) (b : Nat) (bs : List Byte) : State :=
  let v := leNat (splice (leBytes 8 (bar2Word s x)) b bs)
  let slot := stagedSlot s
  match x with
  | .code n a =>
    restartLoads (s.updCoat slot (fun c =>
      twoWords b bs.length (fun c i => putPacketCode c n (a + i) (BitVec.ofNat 32 (v / 2 ^ (32 * i)))) c))
  | .steward k a =>
    s.updCoat slot (fun c =>
      twoWords b bs.length (fun c i => putStewardCode c k (a + i) (BitVec.ofNat 32 (v / 2 ^ (32 * i)))) c)
  | .region o => s.updCoat slot (fun c => setRegion c o v)
  | .desc t w => writeDesc s t w v
  | .slot .. => s
  | .assoc addr w => bar2Assoc s addr (8 * w + b) bs

/-- An object that a BAR2 write may change: the slot apertures are read only (R235). -/
def B2.writable : B2 → Bool
  | .slot .. => false
  | _ => true

/-- The bytes of the staged coat from offset `o`, within 8 bytes; unmapped ones read 0. -/
def bar2Read (s : State) (o n : Nat) : Nat :=
  match bar2At s (o / 8 * 8) with
  | some x => bitsOf (bar2Word s x) (o % 8 * 8) (8 * n)
  | none => 0

/-- Store bytes in the staged coat at offset `o`, within 8 bytes; unmapped ones are discarded. -/
def bar2Write (s : State) (o : Nat) (bs : List Byte) : State :=
  match bar2At s (o / 8 * 8) with
  | some x => bar2Put s x (o % 8) bs
  | none => s

/-- Count an access refused under R35. -/
def refuse (s : State) : State :=
  s.wr F.SY_REFUSED_ACCESS.COUNT 0 (satAdd 64 (s.rd F.SY_REFUSED_ACCESS.COUNT 0) 1)

/-- A host read of BAR2 that the staged slot answers now (R35, R55): one of an unmapped offset reads 0 and is counted. -/
def bar2HostRead (s : State) (o n : Nat) : State × Nat :=
  match bar2At s (o / 8 * 8) with
  | none => (refuse s, 0)
  | some _ => (s, bar2Read s o n)

/-- A host write to BAR2 that the staged slot takes now (R35, R54, R55): one to an unmapped offset is refused. -/
def bar2Host (s : State) (o : Nat) (bs : List Byte) : State :=
  match bar2At s (o / 8 * 8) with
  | none => refuse s
  | some x => if x.writable then markStaged (bar2Put s x (o % 8) bs) else s

end Sys2Proof.Machine
end

