-- ==== Sys2Proof/Machine/TrowelCtl.lean ====
section
/-! DEFINITION. Trowel channels as software starts, resets, kills and wakes them, and the timers (R425 to R428, R436
to R445). -/

namespace Sys2Proof.Machine

def TwChan.init : TwChan where
  pc := 0
  openLoop := none
  moves := []
  signals := 0
  wait := none
  halting := false
  faulting := false

def twChan (s : State) (c : Nat) : TwChan := Sparse.get TwChan.init s.tw.chans c

def State.setTw (s : State) (c : Nat) (v : TwChan) : State :=
  { s with tw := { s.tw with chans := Sparse.set TwChan.init s.tw.chans c v } }

/-- STATE of a channel (R425): 0 IDLE, 1 ARMED, 2 RUNNING, 3 WAITING, 4 PARKED, 5 FAULTED, 6 KILLED. -/
def twState (s : State) (c : Nat) : Nat := s.rd F.TW_CH_STATUS.STATE c
def State.setTwState (s : State) (c v : Nat) : State := s.wr F.TW_CH_STATUS.STATE c v

/-- INFLIGHT shows the moves begun and not complete. -/
def syncInflight (s : State) (c : Nat) : State := s.wr F.TW_CH_STATUS.INFLIGHT c (twChan s c).moves.length

/-- What START and RESET clear and load (R426). -/
def twClear (s : State) (c : Nat) : State :=
  let s := s.setTw c { TwChan.init with pc := s.rd F.TW_CH_PC.PC c * 8 }
  let s := s.wr F.TW_CH_COUNT.REMAIN c (s.rd F.TW_CH_COUNT.RELOAD c)
  let s := (s.wr F.TW_CH_STATUS.LOOP_I c 0).wr F.TW_CH_STATUS.DB_PEND c 0
  syncInflight (s.wr F.TW_CH_STATUS.FAULT c 0) c

/-- Software's commands to channels 126 and 127 are discarded while twin operation is enabled (R428). -/
def twOwned (s : State) (c : Nat) : Bool := decide (126 ≤ c) && s.on F.TN_CTRL.EN 0

/-- START (R426). -/
def twStart (s : State) (c : Nat) : State :=
  if twOwned s c || twState s c != 0 then s
  else
    let s := twClear s c
    let src := s.rd F.TW_CH_CTRL.START_SRC c
    match s.rd F.TW_CH_CTRL.START_EV c with
    | 1 => (s.setTw c { (twChan s c) with wait := some (.timer src) }).setTwState c 1
    | 2 => (s.setTw c { (twChan s c) with wait := some (.signal src) }).setTwState c 1
    | _ => s.setTwState c 2

/-- RESET (R426). -/
def twReset (s : State) (c : Nat) : State :=
  if twOwned s c || !(twState s c == 0 || twState s c == 5 || twState s c == 6) then s
  else (twClear s c).setTwState c 0

/-! ### Undefined bytes -/

/-- The bytes of a MOVE's destination become undefined (R431, R443): free values stand there. -/
def loseBytes (s : State) (addr n : Nat) : State :=
  let space := addr / 2 ^ 56
  let off := addr % 2 ^ 56
  if space = 0 then
    let r := s.freshBytes n
    { r.2 with host := { r.2.host with mem := hostStore r.2.host.mem off r.1 } }
  else if 1 ≤ space ∧ space ≤ 3 then
    let r := s.freshBytes n
    { r.2 with hb := { r.2.hb with mem := stackStore r.2.hb.mem (space - 1) off r.1 } }
  else { s with tw := { s.tw with lost := s.tw.lost ++ [(addr, n)] } }

/-- KILL (R443): what the channel shows until RESET is undefined, FAULT too when the channel was stopping on one. -/
def twKill (s : State) (c : Nat) : State :=
  if twOwned s c then s
  else
    let s := (twChan s c).moves.foldl (fun s m => loseBytes s m.dst m.len) s
    let a := s.fresh
    let b := a.2.fresh
    let d := b.2.fresh
    let e := d.2.fresh
    let f := e.2.fresh
    let g := f.2.fresh
    let h := g.2.fresh
    let s := if (twChan s c).faulting then h.2.wr F.TW_CH_STATUS.FAULT c h.1.toNat else h.2
    let s := (s.wr F.TW_CH_COUNT.REMAIN c a.1.toNat).wr F.TW_CH_STATUS.LOOP_I c b.1.toNat
    let s := (s.wr F.TW_CH_STATUS.DB_PEND c d.1.toNat).wr F.TW_CH_STATUS.INFLIGHT c e.1.toNat
    (s.setTw c { TwChan.init with pc := (twChan s c).pc, signals := f.1.toNat + g.1.toNat * 2 ^ 64 }).setTwState c 6

/-- A doorbell RING (R441). -/
def twRing (s : State) (c : Nat) : State :=
  if twOwned s c then s
  else
    match twState s c with
    | 4 => s.setTwState c 2
    | 2 => s.wr F.TW_CH_STATUS.DB_PEND c 1
    | 3 => s.wr F.TW_CH_STATUS.DB_PEND c 1
    | _ => s

/-- A TW_DOORBELL write from a realm (R445): 1 RING, 2 START, 3 KILL. -/
def twDoorbell (s : State) (realm c op : Nat) : State :=
  if realm ≠ 0 ∧ s.rd F.TW_CH_CTRL.REALM c ≠ realm then refuse s
  else
    match op with
    | 1 => twRing s c
    | 2 => twStart s c
    | 3 => twKill s c
    | _ => s

/-- CMD and KILL of a TW_CH_CTRL write. -/
def twCommand (s : State) (c cmd : Nat) (kill : Bool) : State :=
  let s := match cmd with
    | 1 => twStart s c
    | 2 => twReset s c
    | _ => s
  if kill then twKill s c else s

/-- A waiting channel goes on, at the instruction after its WAIT. -/
def twProceed (s : State) (c : Nat) : State :=
  let ch := twChan s c
  (s.setTw c { ch with wait := none, pc := (ch.pc + 8) % 2 ^ 64 }).setTwState c 2

/-- An armed channel starts. -/
def twBegin (s : State) (c : Nat) : State := (s.setTw c { (twChan s c) with wait := none }).setTwState c 2

/-- SIGNAL from channel `src` to channel `c` (R436, R437). -/
def twSignalTo (s : State) (src c : Nat) : State :=
  let ch := twChan s c
  match twState s c with
  | 6 => s
  | 1 => if ch.wait = some (.signal src) then twBegin s c else s.setTw c { ch with signals := setBit ch.signals src true }
  | 3 => if ch.wait = some (.signal src) then twProceed s c else s.setTw c { ch with signals := setBit ch.signals src true }
  | _ => s.setTw c { ch with signals := setBit ch.signals src true }

/-! ### Timers (R438) -/

/-- The next tick of a timer comes PERIOD_US from now. -/
def restartTimer (s : State) (t : Nat) : State :=
  { s with tw := { s.tw with timers := Sparse.set 0 s.tw.timers t (s.clk.ns + s.rd F.TW_TIMER.PERIOD_US t * 1000) } }

/-- A timer has been written: EN set starts it, with TICKS 0, and a write restarts its phase. -/
def timerEffect (s : State) (t : Nat) (was : Bool) : State :=
  let s := if s.on F.TW_TIMER.EN t && !was then s.wr F.TW_TIMER.TICKS t 0 else s
  if s.on F.TW_TIMER.EN t then restartTimer s t else s

/-- A tick releases a channel that waits on the timer, and starts one armed on it. -/
def tickChannel (t : Nat) (s : State) (c : Nat) : State :=
  if (twChan s c).wait = some (.timer t) then
    match twState s c with
    | 1 => twBegin s c
    | 3 => twProceed s c
    | _ => s
  else s

/-- TIMER_TICK. An enabled timer ticks, and its next tick comes PERIOD_US after this one was due (R438). -/
def execTimerTick (timer : Nat) (s : State) : Host.Outcome State Fault Refusal :=
  if timer < 16 ∧ s.on F.TW_TIMER.EN timer = true ∧ diesOn s = true then
    let due := Sparse.get 0 s.tw.timers timer
    let s := reachTime s due
    let s := { s with tw := { s.tw with
      timers := Sparse.set 0 s.tw.timers timer (due + s.rd F.TW_TIMER.PERIOD_US timer * 1000) } }
    let s := s.wr F.TW_TIMER.TICKS timer (s.rd F.TW_TIMER.TICKS timer + 1)
    .next ((List.range 128).foldl (tickChannel timer) s)
  else .next s

end Sys2Proof.Machine
end

