-- ==== Sys2Proof/Machine/Csr.lean ====
section
/-! DEFINITION. What the offsets of CSR space read as (R32 to R36, R39): where each register and memory stands, the
fields that show other state, and the read access. -/

namespace Sys2Proof.Machine

/-! ### Places (R32, R34) -/

/-- The instance at offset `o` from a family's base, with the bytes left over. -/
def instAt : List (Nat × Nat) → Nat → Nat → Option (Nat × Nat)
  | [], o, i => some (i, o)
  | (stride, n) :: ds, o, i => if o / stride < n then instAt ds (o % stride) (i * n + o / stride) else none

/-- The first family of a list that has a register at offset `o`: its instance and the byte within it. -/
def regIn (o : Nat) : List Reg → Option (Reg × Nat × Nat)
  | [] => none
  | r :: rs =>
    let d := regDesc r
    if o < d.base then regIn o rs
    else
      match instAt d.dims (o - d.base) 0 with
      | some (i, b) =>
        if b < d.bits / 8 ∧ (r ≠ .FR_TEMPLATE ∨ 8 ≤ i) ∧ (r ≠ .SY_SVC_UNIT ∨ unitExists i = true) then some (r, i, b) else regIn o rs
      | none => regIn o rs

/-- A memory or register of CSR space. -/
inductive Place where
  | reg (r : Reg) (i w : Nat)
  | msixTable (v w : Nat)
  | msixPba (w : Nat)
  | faultRec (die i w : Nat)
  | evlog (i w : Nat)
  | lifeRecord (w : Nat)
  | lifeEvent (i w : Nat)
  | health (i w : Nat)
  deriving DecidableEq, Repr

/-- Vectors of a function (R45). -/
def vectorsOf (fn : Nat) : Nat := if fn = 0 then 2048 else 64

/-- What stands at BAR0 offset `o` for realm `realm` (R33, R45, R103, R518, R519, R535, R568), and the byte of its
64-bit word. The realm view is not looked at here. -/
def placeAt (realm o : Nat) : Option (Place × Nat) :=
  if 0x7F00 ≤ o ∧ o < 0x7F00 + vectorsOf realm / 8 then some (.msixPba ((o - 0x7F00) / 8), o % 8)
  else if 0x8000 ≤ o ∧ o < 0x8000 + 16 * vectorsOf realm then some (.msixTable ((o - 0x8000) / 16) (o % 16 / 8), o % 8)
  else if 0x14000 ≤ o ∧ o < 0x16000 then some (.evlog ((o - 0x14000) / 16) (o % 16 / 8), o % 8)
  else if 0x18000 ≤ o ∧ o < 0x1C000 then some (.health ((o - 0x18000) / 256) (o % 256 / 8), o % 8)
  else if 0x1C000 ≤ o ∧ o < 0x1C400 then some (.lifeRecord ((o - 0x1C000) / 8), o % 8)
  else if 0x1D000 ≤ o ∧ o < 0x1E000 then some (.lifeEvent ((o - 0x1D000) / 16) (o % 16 / 8), o % 8)
  else if 0x01D00000 ≤ o ∧ o < 0x01D20000 then
    some (.faultRec ((o - 0x01D00000) / 0x10000) (o % 0x10000 / 64) (o % 64 / 8), o % 8)
  else
    (regIn o allRegs).map (fun x =>
      let d := regDesc x.1
      let n := d.dims.foldl (fun a e => a * e.2) 1
      (.reg x.1 (if d.view = .perRealm then realm * n + x.2.1 else x.2.1) (x.2.2 / 8), x.2.2 % 8))

/-- Realm view of a place (R34). -/
def Place.view : Place → View
  | .reg r _ _ => (regDesc r).view
  | .msixTable .. => .perRealm
  | .msixPba .. => .perRealm
  | .faultRec .. => .none
  | _ => .readOnly

/-- Bytes of one access to a place: 4 for a 32-bit register, and for the MSI-X structures, whose fields the PCIe base
specification gives 32 bits each. The words of memories that are no registers (fault records, event log, life record,
health store) are read as 64-bit registers, latch included (log entry 143). -/
def Place.bytes : Place → Nat
  | .reg r _ w => min 8 ((regDesc r).bits / 8 - 8 * w)
  | .msixTable .. => 4
  | .msixPba .. => 4
  | _ => 8

/-! ### Contents that other state gives -/

/-- The life record's 1,024 bytes (R518). -/
def lifeRecord (s : State) : List Byte :=
  let l := s.lt.life
  let spares := flag (svState s 64 == 0) + flag (svState s 65 == 0)
  leBytes 8 (lifeSeconds s) ++ leBytes 4 l.onHours ++ leBytes 4 l.cycles ++ leBytes 4 l.vinLoss ++
    leBytes 4 l.vinSurge ++ leBytes 4 l.vinLow ++ leBytes 4 l.vauxLoss ++
    (List.range 30).flatMap (fun i => leBytes 4 (Sparse.get 0 l.thermal i)) ++
    leBytes 4 l.flashErase0 ++ leBytes 4 l.flashErase1 ++ leBytes 4 l.sliceRetires ++
    leBytes 1 l.spareSlice ++ leBytes 1 spares ++ leBytes 2 l.columnsH ++ leBytes 2 l.columnsV ++
    (List.range 3).flatMap (fun i => leBytes 2 (Sparse.get 0 l.hbmRepairs i)) ++
    (List.range 3).flatMap (fun i => leBytes 1 (Sparse.get 0 l.hbmRetired i)) ++
    leBytes 1 l.phases ++ leBytes 6 l.lanesRetired ++ leBytes 6 0 ++
    (List.range 8).flatMap (fun i => leBytes 2 (Sparse.get 0 l.captureWear i))

/-- Packets in threads that are stamped with the coat of the staged slot (SY_COAT_STATUS). -/
def oldInThreads (s : State) : Nat :=
  (s.hn.threads.filter (fun e => match e.2.job with
    | some j => j.slot == stagedSlot s
    | none => false)).length

/-- Owner's results of the last pass: bin `b`, or 0. -/
def assayBinOf (s : State) (o b : Nat) : Nat :=
  match Sparse.get none s.bm.published o with
  | some l => l.bins.getD b 0
  | none => 0

/-- ABI level of a function (R48). -/
def abiLevel (s : State) (fn : Nat) : Nat := s.rd F.SY_ABI_SELECT.LEVEL fn

/-- A ring of a function is enabled (SY_ABI_SELECT.LOCKED). -/
def ringsOpen (s : State) (fn : Nat) : Bool := (List.range 16).any (fun k => s.on F.SY_RING_BASE.ENABLE (fn * 16 + k))

/-- A window's operation runs (R310). -/
def windowBusy (s : State) (r : Reg) (i : Nat) : Bool :=
  decide (s.clk.ns < Sparse.get 0 s.host.busyTill (pairKey r.code i))

/-- A register word as read: the stored word, with the fields that show other state put in. -/
def shownWord (s : State) (r : Reg) (i w : Nat) : Nat :=
  let v := (s.word r i w).toNat
  match r, w with
  | .SY_ABI_SELECT, _ => putBits v 24 1 (flag (ringsOpen s i))
  | .SY_RING_COAL, _ => if abiLevel s (i / 16) < 3 then 0 else v
  | .SY_HALLMARK, _ => putBits v 12 1 (flag (s.rd F.SY_HALLMARK.PIN 0 != s.hallmark))
  | .SY_COAT_STATUS, _ => putBits v 8 24 (if s.rd F.SY_COAT_STATUS.STATE 0 = 2 then oldInThreads s else 0)
  | .LK_LPM_STATUS, _ => putBits (putBits v 0 24 (unitsUsed s)) 32 1 (flag (!s.lk.routeQ.isEmpty))
  | .LK_LEARN_CTRL, _ => putBits v 1 13 s.lk.learnQ.length
  | .VT_POOL_STAT, 0 => poolFree s i + poolOut s i * 2 ^ 32
  | .VT_POOL_STAT, _ => poolOwed s i + flag (closedShown s i) * 2 ^ 63
  | .VT_OWNER_STAT, 0 => ownerOut s i + ownerUnits s i * 2 ^ 32
  | .VT_OWNER_STAT, 1 => ownerSram s i + ownerDrawn s i 0 * 2 ^ 32
  | .VT_OWNER_STAT, 2 => ownerDrawn s i 1 + ownerDrawn s i 2 * 2 ^ 32
  | .VT_OWNER_STAT, _ => ownerDrawn s i 3
  | .VT_BUF_CTRL, _ => putBits v 32 32 (nowUs s)
  | .VT_ASSAY_STATUS, _ => putBits v 32 1 (flag (s.bm.published.any (fun e => leakNow s e.1)))
  | .VT_ASSAY, w =>
    if w < 4 then assayBinOf s i (2 * w) + assayBinOf s i (2 * w + 1) * 2 ^ 32
    else if w = 4 then (match Sparse.get none s.bm.published i with
      | some l => l.oldest
      | none => 0)
    else if w = 5 then (match Sparse.get none s.bm.published i with
      | some l => l.handle
      | none => 2 ^ 33 - 1)
    else if w = 6 then
      putBits (putBits v 1 1 (flag (leakNow s i))) 32 32 (s.rd F.VT_ASSAY_STATUS.PASSES 0)
    else v
  | .VT_QADM_STAT, _ => voqBacklog s
  | .VT_PORT, 1 => putBits v 0 40 (portDepth s i)
  | .VT_NODE, 1 => putBits (putBits v 0 40 (elemDepth s (.node i))) 40 1 (flag (attached s (.node i)))
  | .VT_EQ, 1 => putBits (putBits v 0 40 (depthOf (eqOf s i))) 40 1 (flag (attached s (.eq i)))
  | .VT_VOQ, 1 => putBits v 0 40 (depthOf (voqOf s i))
  | .FB_MODE, _ => putBits v 4 1 (flag (s.rd F.FB_MODE.MODE 0 != modeEff s || s.rd F.FB_MODE.MODULE_ID 0 != myId s))
  | .VT_MTR_WIN, 0 => putBits v 26 1 (flag (windowBusy s r i))
  | .TN_STREAM_WIN, 0 => putBits v 26 1 (flag (windowBusy s r i))
  | .PT_SA_WIN, 0 => putBits v 26 1 (flag (windowBusy s r i))
  | .FR_STATUS, _ => putBits v 16 12 (8 * stageUsed s)
  | .TW_CH_PC, _ => if twState s i = 0 then v else (twChan s i).pc
  | .HB_STATUS, _ => putBits v 8 8 (stackTemp s i)
  | .PT_PORT_STATUS, _ => putBits v 0 1 (flag (portServes s i))
  | .PT_TIME_STATUS, 0 => ptpTime s
  | .SY_SVC_UNIT, _ => putBits v 16 16 (unitEvents s i)
  | .PC_EVENT, _ => Sparse.get 0 s.cnt.events i
  | .PC_BANK, _ => Sparse.get 0 s.cnt.banks (pairKey (s.rd F.PC_VIEW.REALM (i / 1280)) (i % 1280))
  | _, _ => v

/-- Word `w` of a vector's MSI-X table entry (PCIe base specification). -/
def msixWord (s : State) (fn v w : Nat) : Nat :=
  if w = 0 then (Sparse.get (0 : Word) s.host.msixAddr (pairKey fn v)).toNat
  else (Sparse.get (BitVec.ofNat 64 (2 ^ 32)) s.host.msixCtl (pairKey fn v)).toNat

/-- The 64 bits that a place reads as, for a realm. -/
def placeWord (s : State) (realm : Nat) (p : Place) : Nat :=
  match p with
  | .reg r i w => shownWord s r i w
  | .msixTable v w => msixWord s realm v w
  | .msixPba w =>
    (List.range 64).foldl (fun a b =>
      a + flag (Sparse.get false s.host.msixPending (pairKey realm (64 * w + b))) * 2 ^ b) 0
  | .faultRec die i w => leAt (Sparse.get [] s.hn.faultRecs (pairKey die i)) (8 * w) 8
  | .evlog i w => leAt (Sparse.get [] s.lt.evlog i) (8 * w) 8
  | .lifeRecord w => leAt (lifeRecord s) (8 * w) 8
  | .lifeEvent i w => leAt (Sparse.get [] s.lt.lifeRing i) (8 * w) 8
  | .health i w => leAt (Sparse.get [] s.cnt.lathStore i) (8 * w) 8

/-! ### Access rights (R35, R37, R536) -/

/-- The dies are out of reset, or the place is one that the Lath serves. -/
def placeServed (s : State) (o : Nat) : Bool := diesOn s || decide (0x10000 ≤ o ∧ o < 0x20000) || decide (o / 8 * 8 = 0x20)

/-- May the agent reach what stands at an offset at all (R30, R34, R35, R536)? -/
def reachable (s : State) (a : Agent) (o : Nat) (p : Place) : Bool :=
  placeServed s o &&
  (match a with
    | .fn 0 => decide (s.host.endpoint = .ready)
    | .fn n => decide (s.host.endpoint = .ready) && realmExists s n && decide (o < 0x100000) && p.view != .none
    | .smbus => decide (0x10000 ≤ o ∧ o < 0x20000) || decide (o / 8 * 8 = 0x20)
    | _ => true)

/-- An access refused under R35 leaves its count when a host made it. -/
def refuseFor (s : State) (a : Agent) : State :=
  match a with
  | .fn _ => refuse s
  | _ => s

/-- An access is counted (event 1,232). -/
def countAccess (s : State) (a : Agent) (o : Nat) : State :=
  let at_ : Attr := { realm := some (agentRealm a), master := agentMaster a, priv := some (privOf s a),
                      addr := some (4 * 2 ^ 56 + o) }
  match a with
  | .fn n => s.count 1232 (some n) 1 at_
  | .steward _ => s.count 1232 (some 0) 1 at_
  | _ => s

/-! ### Reads (R36, R39) -/

/-- The agent's latch is held by functions alone (R36). -/
def latchOf (s : State) (a : Agent) : Option (Nat × Word) :=
  match a with
  | .fn n => Sparse.get none s.host.latched n
  | _ => none

def State.setLatch (s : State) (a : Agent) (v : Option (Nat × Word)) : State :=
  match a with
  | .fn n => { s with host := { s.host with latched := Sparse.set none s.host.latched n v } }
  | _ => s

/-- What a read does beside returning the value: the RC fields of PT_TS_FIFO (R39, R486). The halves that are read
are the low one, the high one, or both. -/
def readEffect (s : State) (p : Place) (low : Bool) : State × Option Nat :=
  match p with
  | .reg .PT_TS_FIFO i 0 => if low then ((takeStamp s i).1, some (takeStamp s i).2) else (s, none)
  | _ => (s, none)

/-- A read of the 64-bit word at a place, as one access. -/
def readWhole (s : State) (a : Agent) (p : Place) : State × Nat :=
  match readEffect s p true with
  | (s, some v) => (s, v)
  | (s, none) => (s, placeWord s (agentRealm a) p)

/-- A 32-bit read of a place that the agent reaches, at offset `o`, byte `b` of the place's word (R36). -/
def readHalf (s : State) (a : Agent) (o b : Nat) (p : Place) : State × Nat :=
  if p.bytes = 4 then let r := readWhole s a p; (r.1, bitsOf r.2 (8 * b) 32)
  else if b = 0 then
    let r := readWhole s a p
    (r.1.setLatch a (some (o + 4, BitVec.ofNat 64 (bitsOf r.2 32 32))), bitsOf r.2 0 32)
  else
    match latchOf s a with
    | some (x, v) =>
      if x = o then (s.setLatch a none, v.toNat) else (s, bitsOf (placeWord s (agentRealm a) p) 32 32)
    | none => (s, bitsOf (placeWord s (agentRealm a) p) 32 32)

/-- A 32-bit read at offset `o` (R36). -/
def read32 (s : State) (a : Agent) (o : Nat) : State × Nat :=
  match placeAt (agentRealm a) o with
  | none => (refuseFor s a, 0)
  | some (p, b) => if reachable s a o p then readHalf s a o b p else (refuseFor s a, 0)

/-- A 64-bit read at offset `o`, a multiple of 8 (R36). -/
def read64 (s : State) (a : Agent) (o : Nat) : State × Nat :=
  match placeAt (agentRealm a) o with
  | some (p, b) =>
    if p.bytes = 8 ∧ b = 0 then
      if reachable s a o p then readWhole s a p else (refuseFor s a, 0)
    else
      let l := read32 s a o
      let h := read32 l.1 a (o + 4)
      (h.1, l.2 + h.2 * 2 ^ 32)
  | none =>
    let l := read32 s a o
    let h := read32 l.1 a (o + 4)
    (h.1, l.2 + h.2 * 2 ^ 32)

/-- A read access, naturally aligned (R36). -/
def csrRead (s : State) (a : Agent) (o : Nat) (w : Width) : State × Nat :=
  let r := match w with
    | .w32 => read32 s a (o / 4 * 4)
    | .w64 => read64 s a (o / 8 * 8)
  (countAccess r.1 a o, r.2)

end Sys2Proof.Machine
end

