-- ==== Sys2Proof/Machine/Clamps.lean ====
section
/-! DEFINITION. Clamps that depend on other fields or on the module (R40, R41), and the storing of a written word with
its access codes (R39, R42). -/

namespace Sys2Proof.Machine

/-! ### What the clamps look at -/

/-- First unit of a pool, and the unit past its last. -/
def poolRange (s : State) (p : Nat) : Nat × Nat :=
  let b := s.rd F.VT_POOL_GEOM.BASE p
  (b, b + s.rd F.VT_POOL_GEOM.COUNT p * 4 ^ poolClass p)

/-- Two half-open ranges share a number. -/
def rangesMeet (a b : Nat × Nat) : Bool := decide (max a.1 b.1 < min a.2 b.2)

/-- A pool's range overlaps that of another enabled pool of its home (VT_POOL_GEOM). -/
def poolOverlaps (s : State) (p : Nat) : Bool :=
  (List.range 64).any (fun q => q != p && s.on F.VT_POOL_GEOM.EN q &&
    s.rd F.VT_POOL_GEOM.HOME q == s.rd F.VT_POOL_GEOM.HOME p && rangesMeet (poolRange s p) (poolRange s q))

/-- F of an owner's reserve in class `c` (R285). -/
def reserveLimit (s : State) (o c : Nat) : Nat :=
  let p := homePool s o c
  let others := sumOf ((List.range 4096).map (fun x => if x ≠ o ∧ homePool s x c = p then ownerRsv s x c else 0))
  min (2 ^ 24 - 1) (s.rd F.VT_POOL_GEOM.COUNT p - others)

/-- Global slots of a capture target. -/
def targetSlots (s : State) (t : Nat) : Nat × Nat :=
  let a := s.rd F.FR_TARGET.FIRST_SLOT t
  (a, a + s.rd F.FR_TARGET.SLOTS t)

/-- A target's slots overlap those of another target in use (FR_TARGET). -/
def targetOverlaps (s : State) (t : Nat) : Bool :=
  (List.range 72).any (fun u => u != t && s.on F.FR_TARGET.EN u && rangesMeet (targetSlots s t) (targetSlots s u))

/-- FEC values that a MODE allows, the first being its default (R467). -/
def modeFec : Nat → List Nat
  | 0 => [0]
  | 1 => [0]
  | 2 => [0]
  | 3 => [0, 1]
  | 5 => [0, 1]
  | _ => [2]

/-- Port `n` lies within the lanes of an enabled lower-numbered port (R466). -/
def portCovered (s : State) (n : Nat) : Bool :=
  (List.range n).any (fun m => s.on F.PT_PORT.EN m && decide (n < m + modeLanes (portMode s m)))

/-- MODE of port `n` as stored (R466). -/
def clampMode (n v : Nat) : Nat :=
  if 12 < v then 0 else if v ≠ 0 ∧ n % modeLanes v ≠ 0 then 0 else v

/-- PHYS of a FlexE group as stored (R469). -/
def clampPhys (s : State) (v : Nat) : Nat :=
  match (bitsSet v 32).filter (fun n => modeInstances (portMode s n) != 0) with
  | [] => 0
  | m :: ms =>
    let same := (m :: ms).filter (fun n => modeInstances (portMode s n) == modeInstances (portMode s m))
    (same.take 8).foldl (fun a n => a + 2 ^ n) 0

/-- SLICE_OFF as stored (LT_DOMAIN): one slice of the active list stays on. -/
def clampSliceOff (s : State) (v : Nat) : Nat :=
  let l := (List.range 17).filter (fun n => s.hn.active.contains (some n))
  match l with
  | [] => v
  | n :: rest => if rest.all (bitAt v ·) then setBit v n false else v

/-- PARAM of a rule as stored (LT_RULE): by ACTION, 1 POWER_CAP, 2 POWER_REQ, 4 THROTTLE. -/
def clampParam (action v : Nat) : Nat :=
  match action with
  | 1 => clampRange 1 2 v
  | 2 => clampRange 1 3 v
  | 4 => bitsOf v 0 4 + min 4 (bitsOf v 4 3) * 16
  | _ => 0

/-! ### The clamps of the Clamp column that name more than the value -/

/-- Field at bit `lo` of instance `i` of a register, holding `v`, as its clamp leaves it; other fields are those that
stand in `s`. -/
def clampSpecial (s : State) (r : Reg) (i lo v : Nat) : Nat :=
  match r, lo with
  | .SY_REALM_CTRL, 0 => if i = 0 then 1 else v
  | .SY_REALM_CTRL, _ => if i = 0 then 2 else min v 1
  | .SY_INT_ROUTE, 0 => min v (if s.rd F.SY_INT_ROUTE.REALM i = 0 then 2047 else 63)
  | .SY_INT_ROUTE, _ => if (6 ≤ i ∧ i ≤ 15) ∨ (160 ≤ i ∧ i ≤ 511) then 0 else v
  | .SY_ABI_SELECT, _ => clampRange 1 s.hallmark v
  | .SY_RING_BASE, _ => if i % 16 < s.rd F.SY_REALM_CTRL.RINGS (i / 16) then v else 0
  | .SY_RING_PTRS, _ => min v (2 ^ s.rd F.SY_RING_BASE.LOG2_ENTRIES i - 1)
  | .SY_PUNT_PTRS, _ => min v (2 ^ s.rd F.SY_PUNT_BASE.LOG2_ENTRIES i - 1)
  | .HN_ADM_CTRL, _ => min v (s.rd F.HN_ADM_CTRL.SHED_ON i - 64)
  | .HN_ADM_RULE, _ => min v (16 ^ s.rd F.HN_ADM_RULE.WIDTH i - 1)
  | .VT_POOL_GEOM, 4 =>
    let c := 4 ^ poolClass i
    clampStep 0 (homeUnits (s.rd F.VT_POOL_GEOM.HOME i) - c) c v
  | .VT_POOL_GEOM, 32 =>
    min v ((homeUnits (s.rd F.VT_POOL_GEOM.HOME i) - s.rd F.VT_POOL_GEOM.BASE i) / 4 ^ poolClass i)
  | .VT_POOL_GEOM, _ => if s.rd F.VT_POOL_GEOM.COUNT i = 0 ∨ poolOverlaps s i = true then 0 else v
  | .VT_POOL_POLICY, 8 => clampRange (16 * poolClass i) (16 * poolClass i + 15) v
  | .VT_POOL_POLICY, _ => if 48 ≤ i then 0 else v
  | .VT_OWNER, 64 => min v (reserveLimit s i 0)
  | .VT_OWNER, 88 => min v (reserveLimit s i 1)
  | .VT_OWNER, 128 => min v (reserveLimit s i 2)
  | .VT_OWNER, _ => min v (reserveLimit s i 3)
  | .VT_TPROF, 21 => min v (s.rd F.VT_TPROF.G_MAX i)
  | .VT_TPROF, _ => min v (s.rd F.VT_TPROF.Y_MAX i)
  | .VT_QADM_CTRL, _ => min v (s.rd F.VT_QADM_CTRL.QSHED_ON i - 1)
  | .VT_PORT, _ => if 162 ≤ i ∧ i ≤ 191 then 0 else v
  | .VT_NODE, 45 => min v (s.rd F.VT_NODE.LEVEL i - 1)
  | .VT_NODE, _ => if s.rd F.VT_NODE.PARENT_LEVEL i = 0 then min v 255 else v
  | .VT_EQ, _ => if s.rd F.VT_EQ.PARENT_LEVEL i = 0 then min v 255 else v
  | .FB_MODE, _ => if s.rd F.FB_MODE.GROUP_ID i = s.rd F.FB_MODE.MODULE_ID i then 0 else v
  | .FB_LINK, 0 => if laneOffInMode s i then 0 else v
  | .FB_LINK, _ =>
    if twinLane s i then (if s.hallmark = 1 then bitsOf v 0 1 else bitsOf v 0 2)
    else
      let v := if s.hallmark = 1 then bitsOf v 0 2 else v
      if s.on F.FB_LINK.RATE i then v else setBit v 0 false
  | .FB_FC_CTRL, _ => min v (s.rd F.FB_FC_CTRL.FC_STOP i - 1)
  | .FB_GROUP, _ => min v (min 1024 (65536 - s.rd F.FB_GROUP.FIRST i))
  | .TN_CTRL, _ => if modeEff s = 3 then v else 0
  | .FR_TARGET, 0 => if v = 3 ∨ (v = 1 ∧ 8 ≤ i) ∨ (v = 2 ∧ i ≤ 7) then 0 else v
  | .FR_TARGET, 2 => if s.rd F.FR_TARGET.KIND i = 0 ∨ targetOverlaps s i = true then 0 else v
  | .FR_TARGET, 32 =>
    match s.rd F.FR_TARGET.KIND i with
    | 1 => clampRange 1 0xFFFFFFFE v
    | 2 => min v 0x00FFFFFF
    | _ => v
  | .FR_TARGET, 96 => min v (2 ^ 30 - s.rd F.FR_TARGET.FIRST_SLOT i)
  | .FR_TARGET, _ =>
    if s.rd F.FR_TARGET.KIND i = 1 then
      (let st := if Config.bigBlocks i then 4 else 32
       v / st * st)
    else v
  | .FR_READ, 128 =>
    let a := s.rd F.FR_READ.SEQ_FIRST i
    clampRange a (min (a + 2 ^ 23 - 1) (2 ^ 64 - 1)) v
  | .FR_READ, _ => v / 4096 * 4096
  | .TW_CH_CTRL, _ => if s.rd F.TW_CH_CTRL.START_EV i = 1 then min v 15 else v
  | .HB_RETIRE, 4 => if i = 0 then min v 12 else v
  | .PT_PORT, 0 => if portMode s i = 0 ∨ portCovered s i = true then 0 else v
  | .PT_PORT, 1 => clampMode i v
  | .PT_PORT, 5 =>
    let l := modeFec (portMode s i)
    if l.contains v then v else l.headD 0
  | .PT_PORT, 7 => if portMode s i ≤ 2 then 0 else v
  | .PT_PORT, 24 =>
    let m := portMode s i
    if (m ≤ 3 ∧ m ≠ 0 ∨ m = 6) ∧ ((List.range i).filter (s.on F.PT_PORT.HOLDOVER ·)).length < 4 then v else 0
  | .PT_PORT, _ => v % 2 ^ modeLanes (portMode s i)
  | .PT_FLEXE_GRP, 0 => clampPhys s v
  | .PT_FLEXE_GRP, _ => if s.rd F.PT_FLEXE_GRP.PHYS i = 0 then 0 else v
  | .PT_MACSEC, _ => if s.on F.PT_MACSEC.XPN i then min v (2 ^ 30) else v
  | .PT_TIME_CTRL, _ => unsigned 32 (max (-50000000) (min 50000000 (signed 32 v)))
  | .SY_SVC_CMD, _ => if unitExists v then v else 255
  | .LT_RULE, _ => clampParam (s.rd F.LT_RULE.ACTION i) v
  | .LT_DOMAIN, _ => clampSliceOff s v
  | .PC_FILTER, 8 =>
    match s.rd F.PC_FILTER.MASTER i with
    | 1 => min v 16
    | 2 => min v 7
    | _ => v
  | .PC_FILTER, _ => max v (s.rd F.PC_FILTER.ADDR_LO i)
  | .PC_VIEW, _ => if i = 0 then v else i
  | _, _ => v

/-- Clamp one stored field. -/
def clampField (r : Reg) (i : Nat) (s : State) (f : FieldDesc) : State :=
  let id : FId := ⟨r, f.lo, f.len⟩
  match f.clamp with
  | .keep => s
  | .range lo hi => s.wr id i (clampRange lo hi (s.rd id i))
  | .into lo hi d => if lo ≤ s.rd id i ∧ s.rd id i ≤ hi then s.wr id i d else s
  | .special => s.wr id i (clampSpecial s r i f.lo (s.rd id i))

/-- Clamp the fields of an instance, from the lowest bit upward (R41). Twice, as a field may depend on a higher one. -/
def clampReg (s : State) (r : Reg) (i : Nat) : State :=
  let l := (regDesc r).fields.filter (fun f => f.clamp != .keep)
  l.foldl (clampField r i) (l.foldl (clampField r i) s)

/-! ### Storing a written word (R39, R42) -/

/-- Where a field lies in word `w`: its lowest bit there, and how many of its bits. -/
def fieldPart (f : FieldDesc) (w : Nat) : Nat × Nat :=
  let lo := max f.lo (64 * w)
  (lo - 64 * w, min (f.lo + f.len) (64 * w + 64) - lo)

/-- What a write stores in bits of one access code: `old` stands there, `v` is written where `m` has bits 1. -/
def accessStore (acc : Access) (owner : Bool) (old v m : Nat) : Nat :=
  let merged := old ^^^ ((old ^^^ v) &&& m)
  match acc with
  | .rw => merged
  | .rwo => if owner then merged else old
  | .w1c => old ^^^ (old &&& (v &&& m))
  | .wo => v &&& m
  | _ => old

/-- A word of a register after a write of `v` under mask `m`, before its clamps. -/
def composeWord (r : Reg) (w : Nat) (owner : Bool) (old v m : Nat) : Nat :=
  (regDesc r).fields.foldl (fun a f =>
    let p := fieldPart f w
    if p.2 = 0 then a
    else putBits a p.1 p.2 (accessStore f.access owner (bitsOf old p.1 p.2) (bitsOf v p.1 p.2) (bitsOf m p.1 p.2))) old

/-- A word with its WO fields at 0, as they read. -/
def withoutWo (r : Reg) (w v : Nat) : Nat :=
  (regDesc r).fields.foldl (fun a f =>
    let p := fieldPart f w
    if p.2 = 0 ∨ f.access ≠ .wo then a else putBits a p.1 p.2 0) v

end Sys2Proof.Machine
end

