-- ==== Sys2Proof/Machine/CsrWrite.lean ====
section
/-! DEFINITION. What register writes do beside storing a value, and the write access (R33 to R43, R445). -/

namespace Sys2Proof.Machine

/-! ### Rings stop and start (R38, R57, R65) -/

def RingSt.init : RingSt := ⟨.idle, 0, none⟩

/-- The waiting accesses once ring `k` of a function has stopped: its command in hand waits on, for nobody (R38). -/
def orphanRing (s : State) (fn k : Nat) : List StagedWait :=
  match (Sparse.get RingSt.init s.host.rings (pairKey fn k)).run with
  | .waiting _ d b =>
    if s.coat.waits.contains (.ring fn k) then s.coat.waits.map (fun w => if w = .ring fn k then .orphan fn d b else w)
    else s.coat.waits ++ [.orphan fn d b]
  | _ => s.coat.waits

/-- A ring stops: a command in hand finishes without a completion (R38). -/
def stopRing (s : State) (fn k : Nat) : State :=
  { s with
    host := { s.host with
      rings := Sparse.set RingSt.init s.host.rings (pairKey fn k) RingSt.init
      posted := Sparse.upd [] s.host.posted fn (·.filter (·.1 != k)) }
    coat := { s.coat with
      recoatBy := if s.coat.recoatBy = some (fn, k) then none else s.coat.recoatBy
      waits := orphanRing s fn k }
    lk := dropWaiters s.lk (· == (fn, k)) }

/-- ENABLE of ring instance `i` has been written. -/
def ringEnEffect (s : State) (i : Nat) (was : Bool) : State :=
  let now := s.on F.SY_RING_BASE.ENABLE i
  if now && !was then s.wr F.SY_RING_PTRS.HEAD i (s.rd F.SY_RING_PTRS.TAIL i)
  else if was && !now then stopRing s (i / 16) (i % 16)
  else s

/-- TAIL of an enabled ring has been written: the slots that it passes are posted (R61). -/
def tailEffect (s : State) (i was : Nat) : State :=
  let n := 2 ^ s.rd F.SY_RING_BASE.LOG2_ENTRIES i
  let new := (List.range ((s.rd F.SY_RING_PTRS.TAIL i + n - was % n) % n)).map (fun j => (i % 16, (was + j) % n))
  if s.on F.SY_RING_BASE.ENABLE i then
    { s with host := { s.host with posted := Sparse.upd [] s.host.posted (i / 16) (· ++ new) } }
  else s

/-- ENABLE of a realm has gone to 0: its rings are disabled and stop (R38). -/
def realmOff (s : State) (n : Nat) : State :=
  (List.range 16).foldl (fun s k => stopRing (s.wr F.SY_RING_BASE.ENABLE (16 * n + k) 0) n k) s

/-! ### Fields elsewhere that depend on what was written (R41) -/

/-- Clamp again what depends on the fields of instance `i`. -/
def reclamp (was : State) (r : Reg) (i : Nat) (s : State) : State :=
  match r with
  | .SY_REALM_CTRL => (List.range 16).foldl (fun s k =>
      ringEnEffect (clampReg s .SY_RING_BASE (16 * i + k)) (16 * i + k) (s.on F.SY_RING_BASE.ENABLE (16 * i + k))) s
  | .SY_RING_BASE => clampReg s .SY_RING_PTRS i
  | .SY_PUNT_BASE => clampReg s .SY_PUNT_PTRS i
  | .VT_POOL_GEOM =>
    if s.rd F.VT_POOL_GEOM.COUNT i < was.rd F.VT_POOL_GEOM.COUNT i then
      ((List.range 4096).filter (fun o => homePool s o (poolClass i) == i && ownerRsv s o (poolClass i) != 0)).foldl
        (fun s o => clampReg s .VT_OWNER o) s
    else s
  | .PT_PORT =>
    let s := (List.range 32).foldl (fun s n => clampReg s .PT_PORT n) s
    (List.range 8).foldl (fun s g => clampReg s .PT_FLEXE_GRP g) s
  | .PT_MACSEC =>
    if was.on F.PT_MACSEC.XPN i = s.on F.PT_MACSEC.XPN i then s
    else s.pt.sas.foldl (fun s e =>
      if saPort e.1 = i then s.setSa e.1 (BitVec.ofNat 512 (clampSa s e.1 e.2.toNat)) else s) s
  | _ => s

/-! ### Effects -/

/-- An element's place or EN has been written (R324); ports' depths may have changed with it (R350). -/
def elemEffect (was s : State) (e : Elem) : State :=
  flowAll (if elemPlace was e = elemPlace s e ∧ elemEn was e = elemEn s e then s else moveElem s e (elemPlace was e))

/-- A write to a shaper entry: TAT is now, and it is off the wheel (R327). -/
def shaperEffect (s : State) (h : Nat) : State := s.setShaper h ⟨s.clk.ns * 65536, none⟩

/-- An OP of a window has been written: the window is BUSY while it runs (R310). A coat's start writes wait for each other
(R554), so theirs leave it free. -/
def windowRuns (s : State) (a : Agent) (r : Reg) (i op : Nat) : State :=
  if op = 0 ∨ a = .startWrite then s
  else
    let till := s.clk.ns + min Config.windowNs 1000
    { s with host := { s.host with busyTill := Sparse.set 0 s.host.busyTill (pairKey r.code i) till } }

/-- An OP of a meter window (R310). -/
def meterOp (s : State) (w op : Nat) : State :=
  let n := s.rd F.VT_MTR_WIN.INDEX w
  match op with
  | 1 => showMeter s w n
  | 2 => commitMeter s w n false
  | 3 => commitMeter s w n true
  | _ => s

/-- An OP of the stream window (R385). -/
def streamOp (s : State) (op : Nat) : State :=
  let n := s.rd F.TN_STREAM_WIN.INDEX 0
  match op with
  | 1 => showStream s n
  | 2 => commitStream s n
  | 3 => resetStream s n
  | _ => s

/-- An OP of the SA window (R477). -/
def saOp (s : State) (op : Nat) : State :=
  let n := s.rd F.PT_SA_WIN.INDEX 0
  match op with
  | 1 => showSa s n
  | 2 => commitSa s n
  | _ => s

/-- CMD of TN_CTRL (R375). -/
def twinCmd (s : State) (cmd : Nat) : State :=
  match cmd with
  | 1 => takeCmd s
  | 2 => yieldCmd s
  | 3 => annealCmd s
  | _ => s

/-- CMD of FR_CTRL (R406, R422). -/
def frescoCmd (s : State) (cmd : Nat) : State :=
  match cmd with
  | 1 => flushCmd s
  | 2 => newRingCmd s
  | _ => s

/-- OP of FR_READ (R424); `bad` targets fail a read. -/
def frescoRead (s : State) (bad : List Nat) (op : Nat) : State :=
  match op with
  | 1 => readSegment s bad
  | 2 => verifySegments s bad
  | _ => s

/-- Requests for banks' ganging and modes have been written (R208). -/
def gangAll (s : State) : State := (List.range 8).foldl gangEffect s

/-- GROUP of a VRF has been written: the move of its routes is queued (R260). -/
def vrfEffect (was s : State) (i : Nat) : State :=
  if s.rd F.LK_VRF_MAP.GROUP i = was.rd F.LK_VRF_MAP.GROUP i then s
  else { s with lk := { s.lk with
    routeQ := s.lk.routeQ ++ [.vrf (i / 4096) (i % 4096) (was.rd F.LK_VRF_MAP.GROUP i)] } }

/-- What a write to word `w` of an instance does once it is stored and clamped. `was` is the state before it, `cmd`
the written word with its WO fields, `m` the bits that were written. -/
def writeEffect (was : State) (a : Agent) (r : Reg) (i w cmd m : Nat) (s : State) : State :=
  match r with
  | .SY_REALM_CTRL =>
    if was.on F.SY_REALM_CTRL.ENABLE i && !s.on F.SY_REALM_CTRL.ENABLE i then realmOff s i else s.msixFlush i
  | .SY_RING_BASE => ringEnEffect s i (was.on F.SY_RING_BASE.ENABLE i)
  | .SY_RING_PTRS => tailEffect s i (was.rd F.SY_RING_PTRS.TAIL i)
  | .SY_PUNT_BASE =>
    if s.on F.SY_PUNT_BASE.ENABLE i && !was.on F.SY_PUNT_BASE.ENABLE i then
      s.wr F.SY_PUNT_PTRS.HEAD i (s.rd F.SY_PUNT_PTRS.TAIL i)
    else s
  | .LK_GANG => gangAll s
  | .LK_BANK_MODE => gangAll s
  | .LK_VRF_MAP => vrfEffect was s i
  | .VT_MTR_WIN => if w = 0 then windowRuns (meterOp s i (bitsOf cmd 24 2)) a r i (bitsOf cmd 24 2) else s
  | .VT_NODE => elemEffect was s (.node i)
  | .VT_EQ => elemEffect was s (.eq i)
  | .VT_VOQ => elemEffect was s (.voq i)
  | .VT_SHAPER => shaperEffect s i
  | .FB_MODE => modeSettle s
  | .FB_LINK => laneEnEffect s i (was.on F.FB_LINK.EN i)
  | .FB_FC_CTRL => flowAll s
  | .FB_MSESS =>
    if bitsOf m 48 16 ≠ 0 then { s with fb := { s.fb with sessions := Sparse.set 0 s.fb.sessions i 0 } } else s
  | .TN_CTRL => twinCmd (twinEnEffect s (was.on F.TN_CTRL.EN 0)) (bitsOf cmd 22 2)
  | .TN_STATUS =>
    if was.on F.TN_STATUS.SUSPECT 0 && !s.on F.TN_STATUS.SUSPECT 0 then clearSuspect s false else s
  | .TN_STREAM_WIN => if w = 0 then windowRuns (streamOp s (bitsOf cmd 24 2)) a r 0 (bitsOf cmd 24 2) else s
  | .FR_TARGET => targetEnEffect s i (was.on F.FR_TARGET.EN i)
  | .FR_CTRL => frescoCmd (retireAll (frescoEnEffect s (was.on F.FR_CTRL.EN 0))) (bitsOf cmd 4 2)
  | .FR_READ => if w = 0 then frescoRead s [] (bitsOf cmd 0 2) else s
  | .TW_CH_CTRL => twCommand s i (bitsOf cmd 0 2) (bitAt cmd 2)
  | .TW_TIMER => if m % 2 ^ 32 ≠ 0 then timerEffect s i (was.on F.TW_TIMER.EN i) else s
  | .TW_DOORBELL => twDoorbell s (agentRealm a) (bitsOf cmd 0 7) (bitsOf cmd 8 2)
  | .HB_RETIRE => if bitAt cmd 8 then beginMigration s i else s
  | .PT_PORT => (List.range 32).foldl (fun s n => portChanged s n (was.rd F.PT_PORT.EN n) (portMode was n)) s
  | .PT_FLEXE_GRP => if bitAt cmd 34 && w == 0 then switchCalendar s i else s
  | .PT_SA_WIN => if w = 0 then windowRuns (saOp s (bitsOf cmd 24 2)) a r 0 (bitsOf cmd 24 2) else s
  | .PT_TIME_ADJ => if w = 0 then timeOp s (bitsOf cmd 0 2) else s
  | .PT_SYNCE => syncSynce s
  | .SY_SVC_CMD => serviceOp s (bitsOf cmd 8 2)
  | .LT_CHAN =>
    if was.rd F.LT_CHAN.SOURCE i = s.rd F.LT_CHAN.SOURCE i ∧ was.rd F.LT_CHAN.RATE i = s.rd F.LT_CHAN.RATE i then s
    else clearChannel s i
  | .LT_RULE => syncLath s
  | .LT_DOMAIN => portOffEffect s (was.rd F.LT_DOMAIN.PORT_OFF 0)
  | .LT_POWER => s.setLt (fun l => { l with blocked := false })
  | .PC_FILTER => { s with cnt := { s.cnt with banks := s.cnt.banks.filter (fun e => (unpair e.1).1 != i) } }
  | _ => s

/-! ### Storing a word -/

/-- The register takes the write: some writes are discarded whole by the state of their unit (SY_ABI_SELECT, R49,
TW_CH_PC, R470). -/
def writeTaken (s : State) (r : Reg) (i : Nat) : Bool :=
  match r with
  | .SY_ABI_SELECT => !ringsOpen s i
  | .SY_RING_COAL => decide (3 ≤ abiLevel s (i / 16))
  | .TW_CH_PC => twState s i == 0
  | .PT_FLEXE_CAL => s.rd F.PT_FLEXE_GRP.CAL_USE (i / 1280) != i / 640 % 2
  | .VT_MTR_WIN => !windowBusy s r i
  | .TN_STREAM_WIN => !windowBusy s r i
  | .PT_SA_WIN => !windowBusy s r i
  | _ => true

/-- A stored VT_POOL_GEOM write that R281 discards. -/
def geomRefused (was s : State) (p : Nat) : Bool :=
  (s.rd F.VT_POOL_GEOM.HOME p != was.rd F.VT_POOL_GEOM.HOME p ||
    s.rd F.VT_POOL_GEOM.BASE p != was.rd F.VT_POOL_GEOM.BASE p ||
    s.rd F.VT_POOL_GEOM.COUNT p != was.rd F.VT_POOL_GEOM.COUNT p) &&
  (was.on F.VT_POOL_GEOM.EN p || poolOut was p != 0)

/-- Agent `a` writes `v`, in the bits of mask `m`, to word `w` of an instance. -/
def writeReg (s : State) (a : Agent) (r : Reg) (i w v m : Nat) : State :=
  if !writeTaken s r i then s
  else
    let was := s
    let owner := privOf s a == .owner
    let s := if r = .LT_RULE ∧ owner = true then restartRule s i else s
    let s := s.setWord r i w (BitVec.ofNat 64 (composeWord r w owner (s.word r i w).toNat v m))
    let s := clampReg s r i
    if r = .VT_POOL_GEOM ∧ geomRefused was s i = true then was.count 321 none 1 {}
    else
      let cmd := (s.word r i w).toNat
      let s := s.setWord r i w (BitVec.ofNat 64 (withoutWo r w cmd))
      writeEffect was a r i w cmd m (reclamp was r i s)

/-- An MSI-X table word is written; a vector that is unmasked sends what is pending (R45). -/
def writeMsix (s : State) (fn vec w v m : Nat) : State :=
  let old := msixWord s fn vec w
  let new := BitVec.ofNat 64 (old ^^^ ((old ^^^ v) &&& m))
  let k := pairKey fn vec
  if w = 0 then { s with host := { s.host with msixAddr := Sparse.set 0 s.host.msixAddr k new } }
  else State.msixFlush { s with host := { s.host with
    msixCtl := Sparse.set (BitVec.ofNat 64 (2 ^ 32)) s.host.msixCtl k new } } fn

/-- A write reaches a place. -/
def writePlace (s : State) (a : Agent) (p : Place) (v m : Nat) : State :=
  match p with
  | .reg r i w => writeReg s a r i w v m
  | .msixTable vec w => writeMsix s (agentRealm a) vec w v m
  | _ => s

/-! ### The write access (R34 to R37, R536) -/

/-- A register instance whose REALM field holds a realm (R60). -/
def ownsPlace (s : State) (n : Nat) (p : Place) : Bool :=
  match p with
  | .reg .VT_OWNER i _ => s.rd F.VT_OWNER.REALM i == n
  | _ => false

/-- The agent's privilege lets its writes act on a place: the owner's do; a realm's on its own instances; an
observer's on its MSI-X table alone (R34, R37). -/
def mayWrite (s : State) (a : Agent) (p : Place) : Bool :=
  match privOf s a, p with
  | .owner, _ => true
  | .realm, p => p.view == .perRealm || ownsPlace s (agentRealm a) p
  | .observer, .msixTable .. => true
  | .observer, _ => false

def heldOf (s : State) (a : Agent) : Option (Nat × Word) :=
  match a with
  | .fn n => Sparse.get none s.host.held n
  | _ => none

def State.setHeld (s : State) (a : Agent) (v : Option (Nat × Word)) : State :=
  match a with
  | .fn n => { s with host := { s.host with held := Sparse.set none s.host.held n v } }
  | _ => s

/-- A write that the privilege allows reaches its place; another is discarded. -/
def applyWrite (s : State) (a : Agent) (p : Place) (v m : Nat) : State :=
  if mayWrite s a p then writePlace s a p v m else s

/-- Mask of a 32-bit half. -/
def halfMask (b : Nat) : Nat := (2 ^ 32 - 1) * 2 ^ (8 * b)

/-- A function's 32-bit write to half `b` (0 or 4) of a 64-bit register at offset `o` (R36). -/
def writeHalf (s : State) (a : Agent) (o b : Nat) (p : Place) (v : Nat) : State :=
  if b = 0 then s.setHeld a (some (o, BitVec.ofNat 64 (v % 2 ^ 32)))
  else
    match heldOf s a with
    | some (x, l) =>
      if x + 4 = o then applyWrite (s.setHeld a none) a p (l.toNat + v % 2 ^ 32 * 2 ^ 32) (2 ^ 64 - 1)
      else applyWrite s a p (v % 2 ^ 32 * 2 ^ 32) (halfMask 4)
    | none => applyWrite s a p (v % 2 ^ 32 * 2 ^ 32) (halfMask 4)

/-- A 32-bit write at offset `o` (R36); one by an agent without a held half applies at once (R554). -/
def write32 (s : State) (a : Agent) (o v : Nat) : State :=
  match placeAt (agentRealm a) o with
  | none => refuseFor s a
  | some (p, b) =>
    if !reachable s a o p then refuseFor s a
    else
      match a, decide (p.bytes = 8) with
      | .fn _, true => writeHalf s a o b p v
      | _, _ => applyWrite s a p (v % 2 ^ 32 * 2 ^ (8 * b)) (halfMask b)

/-- A 64-bit write at offset `o`, a multiple of 8 (R36). -/
def write64 (s : State) (a : Agent) (o v : Nat) : State :=
  match placeAt (agentRealm a) o with
  | some (p, b) =>
    if p.bytes = 8 ∧ b = 0 then
      if reachable s a o p then
        (let s := match heldOf s a with
          | some (x, _) => if x = o then s.setHeld a none else s
          | none => s
         applyWrite s a p v (2 ^ 64 - 1))
      else refuseFor s a
    else write32 (write32 s a o v) a (o + 4) (v / 2 ^ 32)
  | none => write32 (write32 s a o v) a (o + 4) (v / 2 ^ 32)

/-! ### Bytes stored by the module's own engines -/

/-- Store bytes at CSR offset `o`, within one aligned 8 bytes: they merge with what stands there (R42). -/
def csrStore8 (s : State) (a : Agent) (o : Nat) (bs : List Byte) : State :=
  let put (s : State) (o : Nat) (v m : Nat) : State :=
    match placeAt (agentRealm a) o with
    | none => s
    | some (p, b) =>
      if !reachable s a o p then s
      else if p.bytes = 8 then applyWrite s a p v m
      else applyWrite s a p (v % 2 ^ 32 * 2 ^ (8 * b)) (m % 2 ^ 32 * 2 ^ (8 * b))
  let at_ := o % 8
  let v := leNat bs * 2 ^ (8 * at_)
  let m := (2 ^ (8 * bs.length) - 1) * 2 ^ (8 * at_)
  match placeAt (agentRealm a) (o / 8 * 8) with
  | some (p, b) =>
    if p.bytes = 8 ∧ b = 0 then put s (o / 8 * 8) v m
    else
      let s := if m % 2 ^ 32 = 0 then s else put s (o / 8 * 8) (v % 2 ^ 32) (m % 2 ^ 32)
      if m / 2 ^ 32 = 0 then s else put s (o / 8 * 8 + 4) (v / 2 ^ 32) (m / 2 ^ 32)
  | none => if m / 2 ^ 32 = 0 then s else put s (o / 8 * 8 + 4) (v / 2 ^ 32) (m / 2 ^ 32)

/-- Cut bytes that begin at address `o` into pieces within aligned 8 bytes; `fuel` bounds the pieces. -/
def pieces8 : Nat → Nat → List Byte → List (Nat × List Byte)
  | 0, _, _ => []
  | _ + 1, _, [] => []
  | n + 1, o, bs =>
    let k := 8 - o % 8
    (o, bs.take k) :: pieces8 n (o + k) (bs.drop k)

/-- Store bytes of CSR space with owner privilege. -/
def csrStore (s : State) (a : Agent) (o : Nat) (bs : List Byte) : State :=
  (pieces8 (bs.length + 1) o bs).foldl (fun s x => csrStore8 s a x.1 x.2) s

/-- Store bytes of the staged coat (system space 0x05). -/
def coatStore (s : State) (o : Nat) (bs : List Byte) : State :=
  (pieces8 (bs.length + 1) o bs).foldl (fun s x => bar2Write s x.1 x.2) s

/-- Destinations that a KILL has left undefined take free bytes (R443). -/
def settleLost : Nat → State → State
  | 0, s => s
  | n + 1, s =>
    match s.tw.lost with
    | [] => s
    | (addr, len) :: rest =>
      let s := { s with tw := { s.tw with lost := rest } }
      let r := s.freshBytes len
      settleLost n (if addr / 2 ^ 56 = 4 then csrStore r.2 (.startWrite) (addr % 2 ^ 56) r.1
        else coatStore r.2 (addr % 2 ^ 56) r.1)

/-- As many MOVEs as channels can have begun. -/
def allMoves : Nat := 2048

/-- A write access, naturally aligned (R36). -/
def csrWrite (s : State) (a : Agent) (o : Nat) (w : Width) (v : Nat) : State :=
  let s := match w with
    | .w32 => write32 s a (o / 4 * 4) v
    | .w64 => write64 s a (o / 8 * 8) v
  settleLost allMoves (countAccess s a o)

/-- Offset of word `w` of an instance of a register. -/
def regOffset (r : Reg) (i w : Nat) : Nat :=
  let d := regDesc r
  let go := d.dims.reverse.foldl (fun (x : Nat × Nat) e => (x.1 / e.2, x.2 + x.1 % e.2 * e.1)) (i, 0)
  d.base + go.2 + 8 * w

end Sys2Proof.Machine
end

