-- ==== Sys2Proof/Machine/RegCommands.lean ====
section
/-! DEFINITION. The commands that are accesses to registers by the host, the board controller or a steward thread. -/

namespace Sys2Proof.Machine

/-! ### Accesses -/

/-- The agent can make an access: a host needs a ready endpoint (R549), the board controller a running Lath. -/
def canAccess (s : State) (a : Agent) : Bool :=
  match a with
  | .fn _ => decide (s.host.endpoint = .ready)
  | .smbus => s.lt.running
  | .steward _ => diesOn s
  | .startWrite => true

/-- A waiting BAR2 write holds back the PF's later accesses (R593). -/
def hostBehind (s : State) (a : Agent) : Bool :=
  decide (a = .fn 0) && s.coat.waits.any (fun w => match w with
    | .bar2 .. => true
    | _ => false)

def addWait (s : State) (w : StagedWait) : State :=
  { s with coat := { s.coat with waits := s.coat.waits ++ [w] } }

/-- An agent's write access. -/
def accessWrite (s : State) (a : Agent) (o : Nat) (w : Width) (v : Nat) : State :=
  if !canAccess s a then s
  else if hostBehind s a then addWait s (.hostWrite o w (BitVec.ofNat 64 v))
  else csrWrite s a o w v

/-- An agent's write to word `w` of an instance of a register, of the width that the register has there. -/
def agentWrite (s : State) (a : Agent) (r : Reg) (i w v : Nat) : State :=
  accessWrite s a (regOffset r i w) (if (regDesc r).bits < 64 then .w32 else .w64) v

/-- A read access: the value goes to the agent. -/
def readNow (s : State) (a : Agent) (o : Nat) (w : Width) : State :=
  let r := csrRead s a o w
  r.1.emit (.readData a o (BitVec.ofNat 64 r.2))

/-- An agent's read at an offset. -/
def agentRead (s : State) (a : Agent) (o : Nat) (w : Width) : State :=
  if !canAccess s a then s
  else if hostBehind s a then addWait s (.hostRead o w)
  else readNow s a o w

/-- The stored word of a register, for a write that changes one of its fields. -/
def wordNow (s : State) (r : Reg) (i w : Nat) : Nat := (s.word r i w).toNat

/-- The agent reaches word `w` of an instance and may write it. -/
def canWrite (s : State) (a : Agent) (r : Reg) (i w : Nat) : Bool :=
  canAccess s a && !hostBehind s a && reachable s a (regOffset r i w) (.reg r i w) && mayWrite s a (.reg r i w)

/-- REGISTER_WRITE. A register write; or a function control of configuration space: VF enable (R30), and MSI-X enable
and function mask (R45). -/
def execRegisterWrite (w : RegWrite) (s : State) : Host.Outcome State Fault Refusal :=
  match w with
  | .csr a o wd v => .next (accessWrite s a o wd v.toNat)
  | .numVfs n => .next (if s.host.endpoint = .ready then (List.range 64).foldl State.msixFlush { s with host := { s.host with numVfs := min n 63 } } else s)
  | .msixControl fn en mask =>
    .next (if s.host.endpoint = .ready ∧ fn ≤ 63 then
      State.msixFlush { s with host := { s.host with
        msixEnable := setBit s.host.msixEnable fn en
        msixFnMask := setBit s.host.msixFnMask fn mask } } fn
    else s)

/-- A read of the PF's BAR2 is answered: with zeros, and counted, while the Lath still loads the coat (R35). -/
def bar2ReadNow (s : State) (o : Nat) (w : Width) : State :=
  let r := if s.on F.SY_IMAGE_STATUS.SERVICE_READY 0 then bar2HostRead s o w.bytes else (refuse s, 0)
  r.1.emit (.barData 2 o (BitVec.ofNat 64 r.2))

/-- A read of the PF's BAR4, the Fresco index window, is answered (R31, R423). -/
def bar4ReadNow (s : State) (o : Nat) (w : Width) : State := s.emit (.barData 4 o (BitVec.ofNat 64 (bar4Read s o w.bytes)))

/-- A read of a BAR of the PF, of `size` bytes: naturally aligned, and behind a waiting BAR2 write (R31, R593). -/
def barRead (s : State) (size o : Nat) (w : Width) (wait : Nat → StagedWait) (held : Bool) (now : State → Nat → State) :
    State :=
  let o := o / w.bytes * w.bytes
  if size ≤ o ∨ canAccess s (.fn 0) = false then s
  else if held || hostBehind s (.fn 0) then addWait s (wait o)
  else now s o

/-- RC_READ. A read access: RC fields are cleared as they are read (R36, R39); and a read of the PF's BAR2, which waits
while a recoat runs, or BAR4 (R31, R35, R55, R423, R593). -/
def execRcRead (r : RegRead) (s : State) : Host.Outcome State Fault Refusal :=
  match r with
  | .csr agent offset width => .next (agentRead s agent offset width)
  | .bar2 offset width =>
    .next (barRead s (2 ^ 30) offset width (.bar2Read · width) (recoating s) (fun s o => bar2ReadNow s o width))
  | .bar4 offset width => .next (barRead s (2 ^ 28) offset width (.bar4Read · width) false (fun s o => bar4ReadNow s o width))

/-- REALM_DISABLE. ENABLE of a realm is written 0 (R38). -/
def execRealmDisable (agent : Agent) (realm : Nat) (s : State) : Host.Outcome State Fault Refusal :=
  .next (agentWrite s agent .SY_REALM_CTRL realm 0 (setBit (wordNow s .SY_REALM_CTRL realm 0) 0 false))

/-- RING_ENABLE. SY_RING_BASE is written with ENABLE 1 (R57). -/
def execRingEnable (fn k : Nat) (value : Word) (s : State) : Host.Outcome State Fault Refusal :=
  .next (agentWrite s (.fn fn) .SY_RING_BASE k 0 (setBit value.toNat 8 true))

/-- PUNT_RING_ENABLE. SY_PUNT_BASE is written with ENABLE 1 (R65). -/
def execPuntRingEnable (fn : Nat) (value : Word) (s : State) : Host.Outcome State Fault Refusal :=
  .next (agentWrite s (.fn fn) .SY_PUNT_BASE 0 0 (setBit value.toNat 8 true))

/-- HALLMARK_PIN_WRITE (R50). -/
def execHallmarkPinWrite (agent : Agent) (pin : Nat) (s : State) : Host.Outcome State Fault Refusal :=
  .next (agentWrite s agent .SY_HALLMARK 0 0 (bitsOf pin 0 4 * 16))

/-- VRF_MAP_WRITE (R260). -/
def execVrfMapWrite (agent : Agent) (family vrf : Nat) (value : BitVec 32) (s : State) :
    Host.Outcome State Fault Refusal :=
  .next (agentWrite s agent .LK_VRF_MAP (family * 4096 + vrf) 0 value.toNat)

/-- POOL_GEOMETRY_WRITE (R281). -/
def execPoolGeometryWrite (agent : Agent) (pool : Nat) (value : Word) (s : State) : Host.Outcome State Fault Refusal :=
  .next (agentWrite s agent .VT_POOL_GEOM pool 0 value.toNat)

/-- OWNER_RESERVE_WRITE. A word of VT_OWNER is written (R285). -/
def execOwnerReserveWrite (agent : Agent) (owner word : Nat) (value : Word) (s : State) :
    Host.Outcome State Fault Refusal :=
  .next (agentWrite s agent .VT_OWNER owner word value.toNat)

/-- METER_READ. OP of a meter window is written READ (R310). -/
def execMeterRead (agent : Agent) (window index : Nat) (s : State) : Host.Outcome State Fault Refusal :=
  .next (agentWrite s agent .VT_MTR_WIN window 0 (bitsOf index 0 20 + 1 * 2 ^ 24))

/-- METER_WRITE. OP is written WRITE. -/
def execMeterWrite (agent : Agent) (window index : Nat) (s : State) : Host.Outcome State Fault Refusal :=
  .next (agentWrite s agent .VT_MTR_WIN window 0 (bitsOf index 0 20 + 2 * 2 ^ 24))

/-- WRITE_FILL. OP is written WRITE_FILL. -/
def execMeterWriteFill (agent : Agent) (window index : Nat) (s : State) : Host.Outcome State Fault Refusal :=
  .next (agentWrite s agent .VT_MTR_WIN window 0 (bitsOf index 0 20 + 3 * 2 ^ 24))

/-- SHAPER_WRITE (R327). -/
def execShaperWrite (agent : Agent) (entry : Nat) (value : Word) (s : State) : Host.Outcome State Fault Refusal :=
  .next (agentWrite s agent .VT_SHAPER entry 0 value.toNat)

/-- SCHED_ELEMENT_WRITE (R324). -/
def execSchedElementWrite (agent : Agent) (elem : SchedElem) (value : Word) (s : State) :
    Host.Outcome State Fault Refusal :=
  match elem with
  | .port d => .next (agentWrite s agent .VT_PORT d 0 value.toNat)
  | .node n => .next (agentWrite s agent .VT_NODE n 0 value.toNat)
  | .eq e => .next (agentWrite s agent .VT_EQ e 0 value.toNat)
  | .voq q => .next (agentWrite s agent .VT_VOQ q 0 value.toNat)

/-! ### Twin -/

/-- TWIN_ENABLE. TN_CTRL is written (R373). -/
def execTwinEnable (agent : Agent) (value : Word) (s : State) : Host.Outcome State Fault Refusal :=
  .next (agentWrite s agent .TN_CTRL 0 0 value.toNat)

/-- TN_CTRL as it stands, with a CMD. -/
def twinCmdWord (s : State) (cmd : Nat) : Nat := putBits (wordNow s .TN_CTRL 0 0) 22 2 cmd

/-- TAKE (R375). -/
def execTake (agent : Agent) (s : State) : Host.Outcome State Fault Refusal :=
  .next (agentWrite s agent .TN_CTRL 0 0 (twinCmdWord s 1))

/-- YIELD (R375). -/
def execYield (agent : Agent) (s : State) : Host.Outcome State Fault Refusal :=
  .next (agentWrite s agent .TN_CTRL 0 0 (twinCmdWord s 2))

/-- ANNEAL (R375). -/
def execAnneal (agent : Agent) (s : State) : Host.Outcome State Fault Refusal :=
  .next (agentWrite s agent .TN_CTRL 0 0 (twinCmdWord s 3))

/-- SUSPECT_CLEAR. SUSPECT is written 1 here, or the twin says that it was cleared there (R391). -/
def execSuspectClear (byTwin : Bool) (s : State) : Host.Outcome State Fault Refusal :=
  if byTwin then .next (clearSuspect s true) else .next (agentWrite s (.fn 0) .TN_STATUS 0 0 (2 ^ 4))

/-- STREAM_READ (R385). -/
def execStreamRead (agent : Agent) (index : Nat) (s : State) : Host.Outcome State Fault Refusal :=
  .next (agentWrite s agent .TN_STREAM_WIN 0 0 (bitsOf index 0 16 + 1 * 2 ^ 24))

/-- STREAM_WRITE (R385). -/
def execStreamWrite (agent : Agent) (index : Nat) (s : State) : Host.Outcome State Fault Refusal :=
  .next (agentWrite s agent .TN_STREAM_WIN 0 0 (bitsOf index 0 16 + 2 * 2 ^ 24))

/-- STREAM_RESET (R385). -/
def execStreamReset (agent : Agent) (index : Nat) (s : State) : Host.Outcome State Fault Refusal :=
  .next (agentWrite s agent .TN_STREAM_WIN 0 0 (bitsOf index 0 16 + 3 * 2 ^ 24))

/-! ### Fresco -/

/-- FRESCO_FLUSH (R406). -/
def execFrescoFlush (agent : Agent) (s : State) : Host.Outcome State Fault Refusal :=
  .next (agentWrite s agent .FR_CTRL 0 0 (putBits (wordNow s .FR_CTRL 0 0) 4 2 1))

/-- NEW_RING (R406, R422). -/
def execNewRing (agent : Agent) (s : State) : Host.Outcome State Fault Refusal :=
  .next (agentWrite s agent .FR_CTRL 0 0 (putBits (wordNow s .FR_CTRL 0 0) 4 2 2))

/-- TARGET_ENABLE. Word 0 of FR_TARGET is written with EN 1 (R411). -/
def execTargetEnable (agent : Agent) (target : Nat) (value : Word) (s : State) : Host.Outcome State Fault Refusal :=
  .next (agentWrite s agent .FR_TARGET target 0 (setBit value.toNat 2 true))

/-- SEGMENT_READ. OP of FR_READ is written READ; a read of one of the targets `bad` fails (R424). -/
def execSegmentRead (agent : Agent) (bad : List Nat) (s : State) : Host.Outcome State Fault Refusal :=
  let found := (findSeg s bad (s.rd F.FR_READ.SEQ_FIRST 0)).1
  let t := agentWrite s agent .FR_READ 0 0 (if found = 2 then 0 else 1)
  .next (if found = 2 ∧ canWrite s agent .FR_READ 0 0 = true then t.wr F.FR_READ.RESULT 0 2 else t)

/-- VERIFY. OP of FR_READ is written VERIFY; reads of the targets `bad` fail (R424). -/
def execVerify (agent : Agent) (bad : List Nat) (s : State) : Host.Outcome State Fault Refusal :=
  let t := agentWrite s agent .FR_READ 0 0 2
  .next (if canWrite s agent .FR_READ 0 0 then verifySegments t bad else t)

/-! ### Trowel -/

/-- CHANNEL_START (R426). -/
def execChannelStart (agent : Agent) (c : Nat) (s : State) : Host.Outcome State Fault Refusal :=
  .next (agentWrite s agent .TW_CH_CTRL c 0 (wordNow s .TW_CH_CTRL c 0 + 1))

/-- CHANNEL_RESET (R426). -/
def execChannelReset (agent : Agent) (c : Nat) (s : State) : Host.Outcome State Fault Refusal :=
  .next (agentWrite s agent .TW_CH_CTRL c 0 (wordNow s .TW_CH_CTRL c 0 + 2))

/-- CHANNEL_KILL (R443). -/
def execChannelKill (agent : Agent) (c : Nat) (s : State) : Host.Outcome State Fault Refusal :=
  .next (agentWrite s agent .TW_CH_CTRL c 0 (wordNow s .TW_CH_CTRL c 0 + 4))

/-- DOORBELL_RING (R441, R445). -/
def execDoorbellRing (fn c : Nat) (s : State) : Host.Outcome State Fault Refusal :=
  .next (agentWrite s (.fn fn) .TW_DOORBELL 0 0 (bitsOf c 0 7 + 1 * 2 ^ 8))

/-- DOORBELL_START (R445). -/
def execDoorbellStart (fn c : Nat) (s : State) : Host.Outcome State Fault Refusal :=
  .next (agentWrite s (.fn fn) .TW_DOORBELL 0 0 (bitsOf c 0 7 + 2 * 2 ^ 8))

/-- DOORBELL_KILL (R445). -/
def execDoorbellKill (fn c : Nat) (s : State) : Host.Outcome State Fault Refusal :=
  .next (agentWrite s (.fn fn) .TW_DOORBELL 0 0 (bitsOf c 0 7 + 3 * 2 ^ 8))

/-- TIMER_WRITE (R438). -/
def execTimerWrite (agent : Agent) (timer : Nat) (value : Word) (s : State) : Host.Outcome State Fault Refusal :=
  .next (agentWrite s agent .TW_TIMER timer 0 value.toNat)

/-! ### Stacks, ports, time -/

/-- RETIRE_GO (R465). -/
def execRetireGo (agent : Agent) (stack channel yieldTo : Nat) (s : State) : Host.Outcome State Fault Refusal :=
  .next (agentWrite s agent .HB_RETIRE stack 0 (bitsOf channel 0 4 + bitsOf yieldTo 0 4 * 16 + 2 ^ 8))

/-- CALENDAR_SWITCH (R470). -/
def execCalendarSwitch (agent : Agent) (group : Nat) (s : State) : Host.Outcome State Fault Refusal :=
  .next (agentWrite s agent .PT_FLEXE_GRP group 0 (setBit (wordNow s .PT_FLEXE_GRP group 0) 34 true))

/-- SA_READ (R477). -/
def execSaRead (agent : Agent) (index : Nat) (s : State) : Host.Outcome State Fault Refusal :=
  .next (agentWrite s agent .PT_SA_WIN 0 0 (bitsOf index 0 11 + 1 * 2 ^ 24))

/-- SA_WRITE (R477). -/
def execSaWrite (agent : Agent) (index : Nat) (s : State) : Host.Outcome State Fault Refusal :=
  .next (agentWrite s agent .PT_SA_WIN 0 0 (bitsOf index 0 11 + 2 * 2 ^ 24))

/-- SET (R481). -/
def execTimeSet (agent : Agent) (s : State) : Host.Outcome State Fault Refusal :=
  .next (agentWrite s agent .PT_TIME_ADJ 0 0 1)

/-- STEP (R481). -/
def execTimeStep (agent : Agent) (s : State) : Host.Outcome State Fault Refusal :=
  .next (agentWrite s agent .PT_TIME_ADJ 0 0 2)

/-- TS_FIFO_READ (R486). -/
def execTsFifoRead (agent : Agent) (port : Nat) (s : State) : Host.Outcome State Fault Refusal :=
  .next (agentRead s agent (regOffset .PT_TS_FIFO port 0) .w64)

/-! ### Service -/

/-- RETIRE (R494). -/
def execRetire (agent : Agent) (unit : Nat) (nosub : Bool) (s : State) : Host.Outcome State Fault Refusal :=
  .next (agentWrite s agent .SY_SVC_CMD 0 0 (bitsOf unit 0 8 + 1 * 2 ^ 8 + flag nosub * 2 ^ 10))

/-- REINSTATE (R506). -/
def execReinstate (agent : Agent) (unit : Nat) (s : State) : Host.Outcome State Fault Refusal :=
  .next (agentWrite s agent .SY_SVC_CMD 0 0 (bitsOf unit 0 8 + 2 * 2 ^ 8))

/-- ABORT (R506). -/
def execAbort (agent : Agent) (unit : Nat) (s : State) : Host.Outcome State Fault Refusal :=
  .next (agentWrite s agent .SY_SVC_CMD 0 0 (bitsOf unit 0 8 + 3 * 2 ^ 8))

/-! ### The Lath, filters, SMBus -/

/-- RULE_WRITE (R530). -/
def execRuleWrite (agent : Agent) (rule word : Nat) (value : Word) (s : State) : Host.Outcome State Fault Refusal :=
  .next (agentWrite s agent .LT_RULE rule word value.toNat)

/-- CHANNEL_SOURCE_WRITE (R528). -/
def execChannelSourceWrite (agent : Agent) (channel : Nat) (value : Word) (s : State) :
    Host.Outcome State Fault Refusal :=
  .next (agentWrite s agent .LT_CHAN channel 0 value.toNat)

/-- PC_FILTER_WRITE (R562). -/
def execPcFilterWrite (fn word : Nat) (value : Word) (s : State) : Host.Outcome State Fault Refusal :=
  .next (agentWrite s (.fn fn) .PC_FILTER 0 word value.toNat)

/-- A message names the SMBus target: 0x58 plus the straps that the Lath has sampled (R536, R584). -/
def smbusNamed (s : State) (address : Nat) : Bool := canAccess s .smbus && decide (address = 0x58 + s.lt.straps)

/-- SMBUS_BLOCK_WRITE. Command 0x10; a bad PEC discards the message (R536). -/
def execSmbusBlockWrite (address offset : Nat) (width : Width) (value : Word) (pecOk : Bool) (s : State) :
    Host.Outcome State Fault Refusal :=
  if pecOk ∧ smbusNamed s address = true then .next (csrWrite s .smbus offset width value.toNat) else .next s

/-- SMBUS_SET_OFFSET. Command 0x11 (R536). -/
def execSmbusSetOffset (address offset : Nat) (pecOk : Bool) (s : State) : Host.Outcome State Fault Refusal :=
  if pecOk ∧ smbusNamed s address = true then .next (s.setLt (fun l => { l with smbOffset := offset % 2 ^ 32 }))
  else .next s

/-- The 8 bytes at an offset, a multiple of 4. -/
def smbusBytes (s : State) (o : Nat) : State × Nat :=
  if o % 8 = 0 then read64 s .smbus o
  else
    let l := read32 s .smbus o
    let h := read32 l.1 .smbus (o + 4)
    (h.1, l.2 + h.2 * 2 ^ 32)

/-- SMBUS_BLOCK_READ. Command 0x12: 8 bytes at the read offset, which moves on by 8 (R536). -/
def execSmbusBlockRead (address : Nat) (s : State) : Host.Outcome State Fault Refusal :=
  if smbusNamed s address then
    let r := smbusBytes s (s.lt.smbOffset / 4 * 4)
    .next ((r.1.setLt (fun l => { l with smbOffset := (l.smbOffset + 8) % 2 ^ 32 })).emit
      (.smbus (BitVec.ofNat 64 r.2)))
  else .next s

end Sys2Proof.Machine
end

