-- ==== Sys2Proof/Machine/TableEdit.lean ====
section
/-! DEFINITION. What a TABLE_OP does to a table (R229 to R245): shared by the ring command and by an image's table
records. -/

namespace Sys2Proof.Machine

/-! ### Fields of a TABLE_OP, by the descriptor's bytes (R241) -/

/-- OP; undefined values clamp to READ. -/
def topOp (d : List Byte) : Nat := let v := leAt d 8 1; if v ≤ 6 then v else 0
def topLive (d : List Byte) : Bool := bitAt (leAt d 9 1) 0
def topReplace (d : List Byte) : Bool := bitAt (leAt d 9 1) 1
def topAll (d : List Byte) : Bool := bitAt (leAt d 9 1) 2
def topTable (d : List Byte) : Nat := leAt d 10 2 % 4096
def topPlen (d : List Byte) : Nat := leAt d 14 1
def topData (d : List Byte) : Nat := leAt d 16 8
def topMask (d : List Byte) : Nat := leAt d 24 8
def topAddr (d : List Byte) : Nat := leAt d 24 4
def topKey (d : List Byte) : List (BitVec 4) := nibsOfBytes (slice d 32 32)

/-- The key of a TABLE_OP as its table sees it (R241, R254). -/
def topEKey (s : State) (d : List Byte) : EKey := mkKey s (topTable d) (topKey d) (topPlen d)

/-- The slot of the chosen view (R242). -/
def viewSlot (s : State) (live : Bool) : Nat := if live then activeSlot s else stagedSlot s

/-- READ: the item of the key that the chosen view sees. -/
def topRead (s : State) (d : List Byte) : Option (Loc × Item) :=
  itemSeen s (topTable d) (topEKey s d) (viewSlot s (topLive d))

/-- A live TABLE_OP has changed or deleted a learned entry of a HASH key: the lead tells its follower (R386). -/
def tellChange (was s : State) (kind : ChangeKind) (t : Nat) (k : EKey) (v : Word) : State :=
  match k with
  | .nibs ns => if (itemsOf was t k).any (·.2.learned) then sendChange s kind t ns v (ageNow s) else s
  | .route .. => s

/-- INSERT through a view (R242). -/
def topInsert (s : State) (live : Bool) (d : List Byte) : State × TResult :=
  let t := topTable d
  let k := topEKey s d
  let v : Word := BitVec.ofNat 64 (topData d)
  if !isTableOf s t (viewSlot s live) then (s, .noTable)
  else if (itemSeen s t k (viewSlot s live)).isSome && !topReplace d then (s, .exists_)
  else if live then
    let r := liveWrite s t k v false
    (tellChange s r.1 .write t k v, r.2)
  else stagedWrite s t k v

/-- DELETE through a view (R242). -/
def topDelete (s : State) (live : Bool) (d : List Byte) : State × TResult :=
  let t := topTable d
  if !isTableOf s t (viewSlot s live) then (s, .noTable)
  else if live then
    let r := liveDelete s t (topEKey s d)
    (tellChange s r.1 .erase t (topEKey s d) 0, r.2)
  else stagedDelete s t (topEKey s d)

/-- FLUSH: a live delete of the key of every learned entry of the table whose data matches under the mask (R232,
R242). -/
def topFlush (s : State) (d : List Byte) : State :=
  let t := topTable d
  let keys := s.lk.slots.filterMap (fun e => e.2.bind (fun x =>
    if x.table = t ∧ x.learned = true ∧ (topData d ^^^ x.data.toNat) &&& topMask d = 0 then some x.key else none))
  keys.eraseDups.foldl (fun s k =>
    sendChange (liveDelete s t (.nibs k)).1 .erase t k 0 (ageNow s)) s

/-- REALIGN of one descriptor's COAT field (R234). -/
def realignDesc (s : State) (t : Nat) : State :=
  let c := tblCoat s t
  let c' := realignCoat s c
  if c = c' then s else setTableCoat s t c'

/-- Tables that have a descriptor. -/
def knownTables (s : State) : List Nat := (s.lk.tdesc.map (fun e => e.1 / 4)).eraseDups

/-- REALIGN for a table, or with ALL for every table, descriptor and associative entry (R234, R242). -/
def topRealign (s : State) (d : List Byte) : State :=
  if topAll d then
    let s := realignItems s (fun _ => true)
    realignAssoc ((knownTables s).foldl realignDesc s)
  else realignItems s (fun t => t == topTable d)

end Sys2Proof.Machine
end

