-- ==== Sys2Proof/Machine/Image.lean ====
section
/-! DEFINITION. Sorael images: the header's checks, the sections, the load into the staged slot, and the coat store
(R52 to R54, R175, R176, R181, R238, R246, R446, R552 to R554). -/

namespace Sys2Proof.Machine

/-! ### Pieces of a byte string -/

/-- The first `k` pieces of `n` bytes. -/
def chunks (n : Nat) : Nat → List Byte → List (List Byte)
  | 0, _ => []
  | k + 1, bs => bs.take n :: chunks n k (bs.drop n)

/-! ### The header (R52, R53) -/

/-- The most that an image's total length may be: 192 MiB. -/
def imageMax : Nat := 201326592

def imageLength (img : List Byte) : Nat := leAt img 8 8
def imageSections (img : List Byte) : Nat := leAt img 7 1
def imageDigest (img : List Byte) : Nat := beNat (slice img 16 32)

/-- Format versions that a hallmark accepts (R51): 1 to the hallmark. -/
def formatLimit (s : State) : Nat := s.hallmark

/-- The STATE of the first check of R53 that refuses the header of an image of LENGTH bytes. -/
def headerCheck (s : State) (img : List Byte) (len : Nat) : Option Nat :=
  if slice img 0 4 ≠ [0x53, 0x52, 0x4C, 0x49] then some 5
  else if leAt img 4 2 < 1 ∨ formatLimit s < leAt img 4 2 then some 5
  else if leAt img 6 1 < 1 ∨ 3 < leAt img 6 1 then some 5
  else if imageSections img < 1 then some 5
  else if imageLength img ≠ len ∨ imageMax < imageLength img then some 5
  else if s.hallmark < leAt img 6 1 then some 4
  else if sha256 (img.drop 48) ≠ imageDigest img then some 3
  else none

/-! ### Sections -/

/-- What one section does: the state it leaves, and whether its check passed. -/
abbrev SectionDone := State × Bool

/-- Words of packet code in a slice's memory, and of a steward core's. -/
def packetWords : Nat := 131072
def stewardWords : Nat := 65536

/-- Packet code, into every slice and the code master (R175, R507). -/
def packetSection (s : State) (b : List Byte) : SectionDone :=
  let base := leAt b 8 4
  let n := leAt b 12 4
  if b.length ≠ 16 + 4 * n ∨ packetWords < base + n then (s, false)
  else
    let ws := (chunks 4 n (b.drop 16)).map leNat
    let put (c : Coat) (x : Nat × Nat) : Coat :=
      (List.range 17).foldl (fun c m => putPacketCode c m (base + x.2) (BitVec.ofNat 32 x.1)) c
    (restartLoads (s.updCoat (stagedSlot s) (fun c => ws.zipIdx.foldl put c)), true)

/-- Steward code of one core of a die (R175). -/
def stewardSection (s : State) (b : List Byte) : SectionDone :=
  let die := leAt b 8 1
  let core := leAt b 9 1
  let base := leAt b 12 4
  let n := leAt b 16 4
  if b.length ≠ 20 + 4 * n ∨ stewardWords < base + n ∨ 1 < die ∨ 3 < core then (s, false)
  else
    let ws := (chunks 4 n (b.drop 20)).map leNat
    (s.updCoat (stagedSlot s) (fun c =>
      ws.zipIdx.foldl (fun c x => putStewardCode c (4 * die + core) (base + x.2) (BitVec.ofNat 32 x.1)) c), true)

/-- The entry table (R175). -/
def entrySection (s : State) (b : List Byte) : SectionDone :=
  if b.length ≠ 532 then (s, false)
  else
    let starts := ((chunks 4 128 (b.drop 20)).map leNat).zipIdx.foldl
      (fun m x => Sparse.set 0xFFFFFFFF m x.2 x.1) []
    (s.updCoat (stagedSlot s) (fun c => { c with
      ingressEntry := leAt b 8 4, egressEntry := leAt b 12 4, faultEntry := leAt b 16 4, starts := starts }), true)

/-- A part of the classification region (R181). -/
def regionSection (s : State) (b : List Byte) : SectionDone :=
  let o := leAt b 8 4
  let n := leAt b 12 4
  if b.length ≠ 16 + n ∨ o % 8 ≠ 0 ∨ n % 8 ≠ 0 ∨ 0x100000 < o + n then (s, false)
  else
    let ws := (chunks 8 (n / 8) (b.drop 16)).map leNat
    (s.updCoat (stagedSlot s) (fun c => ws.zipIdx.foldl (fun c x =>
      if regionMapped (o + 8 * x.2) then setRegion c (o + 8 * x.2) x.1 else c) c), true)

/-- Commit associative entries in order through the staged view; one that is refused stops the load (R238). -/
def commitEntries (s : State) (addr : Nat) : List (List Byte) → SectionDone
  | [] => (s, true)
  | e :: es =>
    let r := assocStaged s addr (BitVec.ofNat 512 (leNat e)) none
    if r.2 = .refused then (r.1, false) else commitEntries r.1 (addr + 1) es

/-- Associative entries (R181, R238). -/
def assocSection (s : State) (b : List Byte) : SectionDone :=
  let addr := leAt b 8 4
  let n := leAt b 12 4
  if b.length ≠ 16 + 64 * n ∨ 262144 < addr + n then (s, false)
  else commitEntries s addr (chunks 64 n (b.drop 16))

/-- Write a descriptor as BAR2 does: words 0 to 2 (R236, R246). -/
def writeDescriptor (s : State) (t : Nat) (b : List Byte) : State :=
  [0, 1, 2].foldl (fun s w => writeDesc s t w (leAt b (8 * w) 8)) s

/-- The table directory (R246). -/
def directorySection (s : State) (b : List Byte) : SectionDone :=
  let first := leAt b 8 2
  let n := leAt b 10 2
  if b.length ≠ 16 + 32 * n ∨ 4096 < first + n then (s, false)
  else ((chunks 32 n (b.drop 16)).zipIdx.foldl (fun s x => writeDescriptor s (first + x.2) x.1) s, true)

/-- Apply table records in order as TABLE_OPs without LIVE; another OP, or a RESULT other than OK, stops the load
(R246). -/
def applyRecords (s : State) : List (List Byte) → SectionDone
  | [] => (s, true)
  | e :: es =>
    let d := leBytes 8 0 ++ e
    match topOp d with
    | 1 => let r := topInsert s false d
      if r.2 = .ok then applyRecords r.1 es else (r.1, false)
    | 2 => let r := topDelete s false d
      if r.2 = .ok then applyRecords r.1 es else (r.1, false)
    | _ => (s, false)

/-- Table records (R246). -/
def recordSection (s : State) (b : List Byte) : SectionDone :=
  let n := leAt b 8 4
  if b.length ≠ 16 + 56 * n then (s, false) else applyRecords s (chunks 56 n (b.drop 16))

/-- First byte of the Fresco staging region of stack A (R403). -/
def stagingStart : Nat := 21474836480

/-- `n` bytes from an offset lie in a stack's space, and outside stack A's staging region (R446). -/
def programFits (st x n : Nat) : Bool := decide (x + n ≤ if st = 0 then stagingStart else stackSize)

/-- A Trowel program (R446). -/
def programSection (s : State) (b : List Byte) : SectionDone :=
  let addr := leAt b 8 8
  let n := leAt b 16 4
  let space := addr / 2 ^ 56
  let x := addr % 2 ^ 56
  if b.length ≠ 20 + 8 * n ∨ addr % 8 ≠ 0 ∨ space < 1 ∨ 3 < space ∨ programFits (space - 1) x (8 * n) = false then
    (s, false)
  else (stackWrite s (space - 1) x (b.drop 20) {}, true)

/-- A start write is well formed (R554). -/
def startWriteOk (e : List Byte) : Bool :=
  let w := leAt e 4 1
  (w == 4 || w == 8) && leAt e 5 3 == 0 && leAt e 0 4 % w == 0 && decide (leAt e 0 4 ≤ 0x03FFFFFF)

/-- Start writes are checked whole; they are applied only by a start (R554). -/
def startSection (s : State) (b : List Byte) : SectionDone :=
  let n := leAt b 8 4
  (s, decide (n ≤ 4096) && b.length == 16 + 16 * n && (chunks 16 n (b.drop 16)).all startWriteOk)

/-- A section is loaded by its type; an undefined type is refused. -/
def loadSection (s : State) (b : List Byte) : SectionDone :=
  match leAt b 0 2 with
  | 0x0001 => packetSection s b
  | 0x0002 => stewardSection s b
  | 0x0003 => entrySection s b
  | 0x0010 => regionSection s b
  | 0x0011 => assocSection s b
  | 0x0020 => directorySection s b
  | 0x0021 => recordSection s b
  | 0x0030 => programSection s b
  | 0x0040 => startSection s b
  | _ => (s, false)

/-- The bytes of the next section, and those after it; `none` where R175's checks fail. -/
def nextSection (bs : List Byte) : Option (List Byte × List Byte) :=
  let len := leAt bs 4 4
  if bs.length < 8 ∨ len < 8 ∨ bs.length < len ∨ leAt bs 2 2 ≠ 0 then none
  else some (bs.take len, bs.drop len)

/-- Load sections `k` on, with `tables` entry tables so far. Answers the section that failed, or 0 for a check of the
image as a whole; `none` when all pass (R53, R176). -/
def loadSections : Nat → Nat → List Byte → Nat → State → State × Option Nat
  | 0, _, _, tables, s => (s, if tables = 1 then none else some 0)
  | n + 1, k, bs, tables, s =>
    match nextSection bs with
    | none => (s, some k)
    | some (b, rest) =>
      let r := loadSection s b
      if r.2 then loadSections n (k + 1) rest (tables + flag (leAt b 0 2 == 3)) r.1 else (r.1, some k)

/-- Load an image whose header has passed into the staged slot, with its channel bindings. -/
def loadImage (s : State) (img : List Byte) (binds : List BindDecl) : State × Option Nat :=
  let r := loadSections (imageSections img) 1 (img.drop 64) 0 s
  match r.2 with
  | some k => (r.1, some k)
  | none => (r.1.updCoat (stagedSlot s) (fun c => { c with binds := binds, digest := imageDigest img }), none)

/-! ### IMAGE_STAGE (R53, R552) -/

/-- Sizes of the coat store, and of the holdover coat's share. -/
def storeSize : Nat := 251658240
def holdoverSize : Nat := 67108864

def flashSize : Option FlashCoat → Nat
  | some c => c.image.length
  | none => 0

/-- An image of `n` bytes fits the coat store beside the other coat (R552). -/
def storeFits (s : State) (holdover : Bool) (n : Nat) : Bool :=
  if holdover then decide (n ≤ holdoverSize ∧ n + flashSize s.lt.standing ≤ storeSize)
  else decide (n + flashSize s.lt.holdover ≤ storeSize)

/-- The image is written to flash as the standing or the holdover coat. -/
def writeFlash (s : State) (holdover : Bool) (img : List Byte) (binds : List BindDecl) : State :=
  if holdover then { s with lt := { s.lt with holdover := some ⟨img, binds⟩ } }
  else { s with lt := { s.lt with standing := some ⟨img, binds⟩ } }

/-- Stage an image of LENGTH bytes; `false` when its capacity check refuses it (R53, R552). -/
def stageImage (s : State) (img : List Byte) (len : Nat) (standing holdover : Bool) (binds : List BindDecl) :
    State × Bool :=
  match headerCheck s img len with
  | some st => (setImage s st 0, true)
  | none =>
    if standing && !storeFits s holdover len then (s, false)
    else
      let r := loadImage (setImage s 1 1) img binds
      match r.2 with
      | some k => (setImage r.1 5 k, true)
      | none =>
        if standing then (setImage (writeFlash r.1 holdover img binds) 6 0, true) else (setImage r.1 2 0, true)

/-! ### The load at a start (R108, R553) -/

/-- What the checks of R53 make of an image that a start loads into the staged slot: the STATE of the refusal. -/
def startLoad (s : State) (c : FlashCoat) : State × Option Nat :=
  match headerCheck s c.image c.image.length with
  | some st => (s, some st)
  | none =>
    let r := loadImage s c.image c.binds
    (r.1, r.2.map (fun _ => 5))

/-- Everything that a failing coat wrote is discarded: code, region, tables and entries (R553). -/
def discardCoats (s : State) : State :=
  { s with
    coat := { s.coat with slotA := Coat.empty, slotB := Coat.empty }
    lk := { s.lk with
      tdesc := [], slots := [], routes := [], stages := [], assoc := [], assocBank := [], updates := [], assocHeld := []
      heldEntry := none } }

/-- The loaded coat stands in both slots: what is of the staged slot is copied to the other, and every descriptor and
entry has COAT 0b11 (R108). -/
def bothSlots (s : State) : State :=
  let c := coatOf s (stagedSlot s)
  let assoc := s.lk.assoc.map (fun e => (e.1, if assocFree e.2 then e.2 else assocFlags e.2 3 true))
  { s with
    coat := { s.coat with slotA := c, slotB := c }
    lk := { s.lk with
      tdesc := (knownTables s).foldl (fun m t =>
        if tblCoat s t = 0 then m else Sparse.set (0 : Word) m (t * 4 + 2) 3) s.lk.tdesc
      slots := s.lk.slots.map (fun e => (e.1, e.2.map (fun x => { x with coat := 3 })))
      routes := s.lk.routes.map (fun e => (e.1, e.2.map (fun x => { x with coat := 3 })))
      assoc := assoc
      assocBank := assoc
      updates := []
      assocHeld := [] } }

/-- The start writes of an image's sections, in order (R554). -/
def startWrites : Nat → List Byte → List (Nat × Nat × Nat)
  | 0, _ => []
  | n + 1, bs =>
    match nextSection bs with
    | none => []
    | some (b, rest) =>
      (if leAt b 0 2 = 0x40 then
        (chunks 16 (leAt b 8 4) (b.drop 16)).map (fun e => (leAt e 0 4, leAt e 4 1, leAt e 8 8))
      else []) ++ startWrites n rest

end Sys2Proof.Machine
end

