-- ==== Sys2Proof/Machine/Snapshot.lean ====
section
/-! DEFINITION. Counters as a snapshot copies them (R556, R564, R565, R596). -/

namespace Sys2Proof.Machine

/-- Object counters of an event (R556, R596): 0 where it has none. -/
def objectCount (e : Nat) : Nat :=
  match e with
  | 64 => 640
  | 65 => 640
  | 66 => 320
  | 67 => 2720
  | 68 => 2
  | 69 => 17
  | 70 => 320
  | 192 => 68
  | 193 => 256
  | 194 => 32
  | 201 => 262144
  | 202 => 262144
  | 320 => 25
  | 322 => 102400
  | 323 => 102400
  | 324 => 64
  | 325 => 4096
  | 326 => 557056
  | 448 => 1024
  | 449 => 3145728
  | 450 => 1048576
  | 451 => 557056
  | 452 => 1280
  | 454 => 1024
  | 455 => 1024
  | 576 => 48
  | 577 => 48
  | 580 => 64
  | 584 => 1024
  | 585 => 1024
  | 706 => 65536
  | 707 => 65536
  | 708 => 65536
  | 709 => 65536
  | 710 => 65536
  | 711 => 65536
  | 712 => 65536
  | 713 => 65536
  | 718 => 2
  | 896 => 3
  | 897 => 557056
  | 898 => 4096
  | 960 => 160
  | 961 => 160
  | 963 => 32
  | 1088 => 320
  | 1090 => 10
  | 1152 => 320
  | 1153 => 8
  | 1154 => 557056
  | 1216 => 160
  | 1217 => 160
  | 1218 => 160
  | 1219 => 160
  | 1220 => 17
  | 1221 => 8
  | 1222 => 4096
  | 1223 => 256
  | 1224 => 256
  | 1225 => 1048576
  | 1226 => 3
  | 1227 => 3
  | 1228 => 128
  | 1229 => 48
  | 1230 => 48
  | 1231 => 64
  | 1232 => 64
  | 1233 => 64
  | 1234 => 64
  | 1235 => 4096
  | 1236 => 160
  | _ => 0

/-- Counters of a SOURCE: 0 EVENTS, 1 BANK, 2 OBJECT, 3 PROGRAM. -/
def snapCount (src event : Nat) : Nat :=
  match src with
  | 2 => objectCount event
  | 3 => 16777216
  | _ => 1280

/-- The bytes of counter `i` of a SOURCE (R565). -/
def snapBytes (s : State) (src realm event i : Nat) : List Byte :=
  match src with
  | 1 => leBytes 8 (Sparse.get 0 s.cnt.banks (pairKey realm i))
  | 2 => leBytes 8 (Sparse.get 0 s.cnt.objects (pairKey event i))
  | 3 => leBytes 8 (Sparse.get 0 s.cnt.progPackets i) ++ leBytes 8 (Sparse.get 0 s.cnt.progBytes i)
  | _ => leBytes 8 (Sparse.get 0 s.cnt.events i)

/-- The copy of `n` counters from `first`, and how many exist. -/
def snapshot (s : State) (src realm event first n : Nat) : List Byte × Nat :=
  let k := min n (snapCount src event - first)
  ((List.range k).flatMap (fun j => snapBytes s src realm event (first + j)), k)

end Sys2Proof.Machine
end

