-- ==== Sys2Proof/Machine/Rings.lean ====
section
/-! DEFINITION. Command rings: descriptors, the commands, their completions and messages (R37, R49, R56 to R63, R110,
R241 to R245, R564, R595). -/

namespace Sys2Proof.Machine

/-! ### A ring and its descriptors (R56 to R59) -/

def ringAt (s : State) (fn k : Nat) : RingSt := Sparse.get RingSt.init s.host.rings (pairKey fn k)

def State.setRing (s : State) (fn k : Nat) (r : RingSt) : State :=
  { s with host := { s.host with rings := Sparse.set RingSt.init s.host.rings (pairKey fn k) r } }

def setRun (s : State) (fn k : Nat) (run : RingRun) : State := s.setRing fn k { ringAt s fn k with run := run }

/-- Index of ring `k` of a function in the register families. -/
def ringNo (fn k : Nat) : Nat := fn * 16 + k

/-- Opcodes of an ABI level (R49). -/
def opDefined (level op : Nat) : Bool :=
  [0x0000, 0x0001, 0x0002, 0x0010, 0x0020, 0x0040].contains op ||
  (decide (2 ≤ level) && [0x0030, 0x0050].contains op)

/-- A descriptor's opcode; one outside the function's level clamps to NOP (R49, R59). -/
def ringOp (s : State) (fn : Nat) (d : List Byte) : Nat :=
  let op := leAt d 0 2
  if opDefined (abiLevel s fn) op then op else 0

/-- A descriptor's flags, as stored (R49, R58): bit 0 FENCE, 1 STANDING, 2 HOLDOVER. -/
def ringFlags (s : State) (fn : Nat) (d : List Byte) : Nat :=
  leAt d 2 1 % (if 2 ≤ abiLevel s fn then 8 else 4)

/-- Read-class commands (R58). -/
def readClass (op : Nat) : Bool := op == 0x0000 || op == 0x0001 || op == 0x0030

/-- A ring's next descriptor may be read (R56, R57, R595). -/
def ringReady (s : State) (fn k : Nat) : Bool :=
  diesOn s && s.on F.SY_IMAGE_STATUS.SERVICE_READY 0 && decide (s.host.endpoint = .ready) && realmExists s fn &&
  s.on F.SY_RING_BASE.ENABLE (ringNo fn k) && busMaster s fn &&
  s.rd F.SY_RING_PTRS.HEAD (ringNo fn k) != s.rd F.SY_RING_PTRS.TAIL (ringNo fn k)

/-- Host address of the descriptor at HEAD. -/
def headAddr (s : State) (fn k : Nat) : Nat :=
  s.rd F.SY_RING_BASE.BASE (ringNo fn k) * 4096 + 64 * s.rd F.SY_RING_PTRS.HEAD (ringNo fn k)

/-- Every earlier-posted descriptor of the function has completed, for the next one of ring `k` (R61). -/
def fenceOpen (s : State) (fn k : Nat) : Bool :=
  let l := Sparse.get [] s.host.posted fn
  match splitAtFirst (fun x => x.1 == k) l with
  | some (before, _, _) => before.isEmpty
  | none => l.isEmpty

/-! ### Completion (R58, R61, R63) -/

/-- The ring's message: PF ring k is interrupt source 144 + k, VF ring k is vector k (R46). -/
def ringMessage (s : State) (fn k : Nat) : State :=
  let s := s.setRing fn k { ringAt s fn k with sinceMsg := 0, firstAt := none }
  if fn = 0 then s.raise (144 + k) else s.msix fn k

/-- A completion has been written on a ring: its message follows, or is coalesced (R63). Completions written while IRQ
is 0 do not count towards COUNT (log entry 148). -/
def ringSignal (s : State) (fn k : Nat) : State :=
  let n := ringNo fn k
  if !s.on F.SY_RING_BASE.IRQ n then s
  else if abiLevel s fn < 3 then ringMessage s fn k
  else
    let r := ringAt s fn k
    if s.rd F.SY_RING_COAL.COUNT n ≤ r.sinceMsg + 1 then ringMessage s fn k
    else s.setRing fn k { r with sinceMsg := r.sinceMsg + 1, firstAt := r.firstAt.orElse (fun _ => some s.clk.ns) }

/-- The master of a serving thread's own accesses: Varton steward core 0 (R56, R563). -/
def serveMaster : Option Master := some (.steward 4)

/-- The write-backs are made; the descriptor is complete and the ring takes its next one. -/
def completeRing (s : State) (fn k : Nat) (writes : List (Nat × List Byte)) : State :=
  let s := writes.foldl (fun s w => s.hostWrite fn serveMaster w.1 w.2) s
  let s := s.count 1231 (some fn) 1 { realm := some fn, master := some .host, priv := some (privOf s (.fn fn)) }
  let s := setRun s fn k .idle
  let s := { s with host := { s.host with posted := Sparse.upd [] s.host.posted fn (removeFirst (fun x => x.1 == k)) } }
  ringSignal s fn k

/-- A command is complete, with a status and its parameters' write-backs; they wait for Bus Master Enable (R595). -/
def finishRing (s : State) (fn k addr : Nat) (d : List Byte) (status : Nat) (ws : List (Nat × List Byte)) : State :=
  let all := ws.map (fun w => (addr + w.1, w.2)) ++
    [(addr, leBytes 2 (ringOp s fn d) ++ leBytes 1 (ringFlags s fn d) ++ leBytes 1 status)]
  if busMaster s fn then completeRing s fn k all else setRun s fn k (.writeback all)

/-- How a command's execution ends for now. -/
inductive RingEnd where
  /-- Complete, with the parameter fields written back. -/
  | done (writes : List (Nat × List Byte))
  /-- Refused, for a reason of R49. -/
  | refused (reason : Nat)
  /-- In hand: it waits (R119, R593, R595). -/
  | wait
  /-- It runs on, and completes later (R111, R259). -/
  | later
  deriving DecidableEq, Repr

/-- Who waits for a command: ring `k` of its function and the descriptor's address, or nobody once the ring has stopped
(R38). -/
abbrev RingBy := Option (Nat × Nat)

/-- Reasons of R49. -/
def reasonPrivilege : Nat := 0x20
def reasonState : Nat := 0x21
def reasonGeneration : Nat := 0x22
def reasonCapacity : Nat := 0x23

/-- Status of a refusal at the function's level. -/
def refusalStatus (s : State) (fn reason : Nat) : Nat := if 3 ≤ abiLevel s fn then reason else 2

/-! ### CSR_READ and CSR_WRITE (R60) -/

def csrCmdWidth (d : List Byte) : Nat := if leAt d 12 1 = 4 then 4 else 8
def csrCmdOffset (d : List Byte) : Nat := clampStep 0 0x03FFFFFF (csrCmdWidth d) (leAt d 8 4)

/-- The register that a realm's command reaches in blocks FB, HN, LK and VT: an instance of its own, and the byte of its
word. -/
def ownedPlace (s : State) (fn o : Nat) : Option (Place × Nat) :=
  match placeAt fn o with
  | some (p, b) => if ownsPlace s fn p then some (p, b) else none
  | none => none

/-- An offset beyond the realm windows, of a realm. -/
def beyondWindow (fn o : Nat) : Bool := fn != 0 && decide (0x100000 ≤ o)

/-- `n` bytes at an offset as they read, with none of a read's effects. -/
def peekCsr (s : State) (fn o n : Nat) : Nat :=
  leNat ((List.range n).map (fun i =>
    match placeAt fn (o + i) with
    | some (p, b) =>
      if reachable s (.fn fn) (o + i) p || ownsPlace s fn p then BitVec.ofNat 8 (placeWord s fn p >>> (8 * b)) else 0
    | none => 0))

def widthOf (n : Nat) : Width := if n = 4 then .w32 else .w64

/-- CSR_READ. -/
def runCsrRead (s : State) (fn : Nat) (d : List Byte) : State × RingEnd :=
  let n := csrCmdWidth d
  let o := csrCmdOffset d
  if beyondWindow fn o then
    match ownedPlace s fn o with
    | some (p, b) =>
      let r := if n = 8 then readWhole s (.fn fn) p else readHalf s (.fn fn) o b p
      (countAccess r.1 (.fn fn) o, .done [(16, leBytes 8 r.2)])
    | none => (s, .refused reasonPrivilege)
  else
    let r := csrRead s (.fn fn) o (widthOf n)
    (r.1, .done [(16, leBytes 8 r.2)])

/-- A realm's write to a register instance of its own. -/
def ownedWrite (s : State) (fn o n v : Nat) (p : Place) (b : Nat) : State :=
  let a : Agent := .fn fn
  if n = 8 then
    let s := match heldOf s a with
      | some (x, _) => if x = o then s.setHeld a none else s
      | none => s
    applyWrite s a p v (2 ^ 64 - 1)
  else writeHalf s a o b p v

/-- CSR_WRITE: VALUE is written back as the register reads afterwards. -/
def runCsrWrite (s : State) (fn : Nat) (d : List Byte) : State × RingEnd :=
  let n := csrCmdWidth d
  let o := csrCmdOffset d
  let v := leAt d 16 n
  if beyondWindow fn o then
    match ownedPlace s fn o with
    | some (p, b) =>
      let s := countAccess (ownedWrite s fn o n v p b) (.fn fn) o
      (s, .done [(16, leBytes 8 (peekCsr s fn o n))])
    | none => (s, .refused reasonPrivilege)
  else
    let s := csrWrite s (.fn fn) o (widthOf n) v
    (s, .done [(16, leBytes 8 (peekCsr s fn o n))])

/-! ### IMAGE_STAGE (R53, R60, R119, R552) -/

/-- An image has a section of steward code. -/
def hasSteward : Nat → List Byte → Bool
  | 0, _ => false
  | n + 1, bs =>
    match nextSection bs with
    | none => false
    | some (b, rest) => leAt b 0 2 == 2 || hasSteward n rest

/-- A steward thread holds the staged slot. -/
def stagedHeld (s : State) : Bool := s.hn.threads.any (fun e => e.2.held == some (stagedSlot s))

/-- Wait until D (R593). -/
def waitSteady (s : State) (fn : Nat) (ring : RingBy) : State × RingEnd :=
  match ring with
  | some (k, _) => (if s.coat.waits.contains (.ring fn k) then s else addWait s (.ring fn k), .wait)
  | none => (s, .wait)

def runImageStage (s : State) (fn : Nat) (ring : RingBy) (d : List Byte) (binds : List BindDecl) : State × RingEnd :=
  if recoating s then waitSteady s fn ring
  else if !busMaster s fn then (s, .wait)
  else
    let len := clampRange 64 imageMax (leAt d 16 4)
    let r := s.hostRead fn serveMaster (leAt d 8 8 / 64 * 64) len
    let flags := ringFlags s fn d
    if headerCheck s r.1 len = none ∧ hasSteward (imageSections r.1) (r.1.drop 64) = true ∧ stagedHeld s = true then
      (s, .wait)
    else
      let t := stageImage r.2 r.1 len (bitAt flags 1) (bitAt flags 2) binds
      if t.2 then (t.1, .done [(24, leBytes 4 (shownWord t.1 .SY_IMAGE_STATUS 0 0))])
      else (t.1, .refused reasonCapacity)

/-! ### COUNTER_SNAPSHOT (R564, R565) -/

def runSnapshot (s : State) (fn : Nat) (d : List Byte) : State × RingEnd :=
  let src := if 3 < leAt d 8 1 then 0 else leAt d 8 1
  if fn ≠ 0 ∧ src ≠ 1 then (s, .refused reasonPrivilege)
  else if !busMaster s fn then (s, .wait)
  else
    let realm := if fn = 0 then leAt d 9 1 % 64 else fn
    let r := snapshot s src realm (min (leAt d 10 2) 1279) (leAt d 12 4) (clampRange 1 65536 (leAt d 16 4))
    let time := ptpTime s
    (s.hostWrite fn serveMaster (leAt d 24 8 / 8 * 8) r.1, .done [(32, leBytes 8 time), (40, leBytes 4 r.2)])

/-! ### RECOAT (R110, R111) -/

def runRecoat (s : State) (fn : Nat) (ring : RingBy) (d : List Byte) : State × RingEnd :=
  let want := leAt d 8 4
  if imageState s ≠ 2 ∧ imageState s ≠ 6 then (s, .refused reasonState)
  else if want ≠ 0 ∧ want ≠ s.rd F.SY_COAT_STATUS.GENERATION 0 then (s, .refused reasonGeneration)
  else if recoating s then (s, .refused reasonState)
  else
    let s := s.wr F.SY_COAT_STATUS.STATE 0 1
    match ring with
    | some (k, addr) =>
      (setRun { s with coat := { s.coat with recoatBy := some (fn, k) } } fn k (.recoat addr d), .later)
    | none => (s, .later)

/-! ### TABLE_OP (R241 to R245, R593) -/

/-- A TABLE_OP's bytes written back: RESULT, and for READ the entry's values; R241 gives READ no write-back of its key (log
entry 152). -/
def topWrites (d : List Byte) (r : TResult) (value : List Byte) : List (Nat × List Byte) :=
  (12, leBytes 2 r.code) :: (if topOp d = 0 then [(16, slice value 0 16)] else [])

/-- The values of READ (R241). -/
def topValues (s : State) (d : List Byte) (e : Loc × Item) : List Byte :=
  leBytes 8 e.2.data.toNat ++ leBytes 2 e.2.ts ++ leBytes 1 e.2.coat ++ leBytes 1 (flag e.2.learned) ++
    leBytes 4 (locAddr s (topTable d) e.1)

/-- A staged change has been made with RESULT 0 (R54). -/
def stagedDone (s : State) (live : Bool) (r : TResult) : State := if !live && r == .ok then markStaged s else s

/-- An INSERT or DELETE is made, and its RESULT is at hand. -/
def topChange (s : State) (d : List Byte) : State × TResult :=
  let r := if topOp d = 1 then topInsert s (topLive d) d else topDelete s (topLive d) d
  (stagedDone r.1 (topLive d) r.2, r.2)

/-- ASSOC_WRITE of an entry's bytes (R242), for a ring, unless it has stopped. -/
def topAssocWrite (s : State) (d e : List Byte) (ring : Option (Nat × Nat)) : State × AssocDid :=
  let v := BitVec.ofNat 512 (leNat e)
  if topLive d then (assocCommit s (topAddr d) v ring, .wrote)
  else
    let r := assocStaged s (topAddr d) v ring
    (if r.2 = .refused then r.1 else markStaged r.1, r.2)

/-- A TABLE_OP runs on until lookups see its change (R245). -/
def runOn (s : State) (fn : Nat) (ring : RingBy) (d : List Byte) : State :=
  match ring with
  | some (k, addr) => setRun s fn k (.route addr d)
  | none => s

/-- A TABLE_OP whose turn has come. A REALIGN of a table that the staged coat lacks leaves STATE as it is (R244; log entry
146). -/
def topRun (s : State) (fn : Nat) (ring : RingBy) (d : List Byte) : State × RingEnd :=
  let t := topTable d
  let waiter := ring.map (fun r => (fn, r.1))
  match topOp d with
  | 0 =>
    if !isTableOf s t (viewSlot s (topLive d)) then (s, .done (topWrites d .noTable []))
    else
      match topRead s d with
      | some e => (s, .done (topWrites d .ok (topValues s d e)))
      | none => (s, .done (topWrites d .notFound []))
  | 3 =>
    if !isTableOf s t (activeSlot s) then (s, .done (topWrites d .noTable []))
    else (topFlush s d, .done (topWrites d .ok []))
  | 4 =>
    if !topAll d && !isTableOf s t (stagedSlot s) then (s, .done (topWrites d .noTable []))
    else (markStaged (topRealign s d), .done (topWrites d .ok []))
  | 5 =>
    if 262143 < topAddr d then (s, .done (topWrites d .notFound []))
    else if !busMaster s fn then (s, .wait)
    else
      let r := s.hostRead fn serveMaster (topData d) 64
      let c := topAssocWrite r.2 d r.1 waiter
      match c.2 with
      | .refused => (c.1, .done (topWrites d .active []))
      | .nothing => (c.1, .done (topWrites d .ok []))
      | .wrote => (runOn c.1 fn ring d, .later)
  | 6 =>
    if 262143 < topAddr d then (s, .done (topWrites d .notFound []))
    else if !busMaster s fn then (s, .wait)
    else
      (s.hostWrite fn serveMaster (topData d) (leBytes 64 (assocEntry s (topAddr d)).toNat),
        .done (topWrites d .ok []))
  | _ =>
    if tblKind s t = 3 then
      (runOn { s with lk := { s.lk with routeQ := s.lk.routeQ ++ [.op waiter fn d] } } fn ring d, .later)
    else
      let r := topChange s d
      (r.1, .done (topWrites d r.2 []))

/-- Operations of the owner alone (R243). -/
def topOwnerOnly (d : List Byte) : Bool := topOp d == 5 || topOp d == 6 || (topOp d == 4 && topAll d)

/-- A TABLE_OP acts through the staged view, which a recoat holds back (R231, R593). -/
def topStaged (d : List Byte) : Bool :=
  topOp d == 4 || (!topLive d && (topOp d ≤ 2 || topOp d == 5))

def runTableOp (s : State) (fn : Nat) (ring : RingBy) (d : List Byte) : State × RingEnd :=
  if fn ≠ 0 ∧ (topOwnerOnly d = true ∨ tblRealm s (topTable d) ≠ fn) then (s, .refused reasonPrivilege)
  else if topStaged d && recoating s then waitSteady s fn ring
  else topRun s fn ring d

/-! ### SIGNAL_EVENT (R60, R170) -/

def runSignalEvent (s : State) (d : List Byte) : State × RingEnd :=
  let n := leAt d 8 2
  (assertLine s (bitsOf n 8 1) (bitsOf n 4 2) (bitsOf n 0 4) 63, .done [])

/-! ### Execution -/

/-- A command is refused for privilege (R37). -/
def ringDenied (s : State) (fn op : Nat) : Bool :=
  match privOf s (.fn fn) with
  | .owner => false
  | .realm => op == 0x0020 || op == 0x0040 || op == 0x0050
  | .observer => !readClass op

/-- A command executes. -/
def ringExecute (s : State) (fn : Nat) (ring : RingBy) (d : List Byte) (binds : List BindDecl) : State × RingEnd :=
  let op := ringOp s fn d
  if ringDenied s fn op then (s, .refused reasonPrivilege)
  else
    match op with
    | 0x0001 => runCsrRead s fn d
    | 0x0002 => runCsrWrite s fn d
    | 0x0010 => runTableOp s fn ring d
    | 0x0020 => runImageStage s fn ring d binds
    | 0x0030 => runSnapshot s fn d
    | 0x0040 => runRecoat s fn ring d
    | 0x0050 => runSignalEvent s d
    | _ => (s, .done [])

/-- A command in hand executes. When it, or what it caused, has stopped its ring, no completion is written (R38). -/
def ringRun (s : State) (fn k addr : Nat) (d : List Byte) (binds : List BindDecl) : State :=
  let s := setRun s fn k (.waiting addr d binds)
  let r := ringExecute s fn (some (k, addr)) d binds
  let inHand : Bool := decide ((ringAt r.1 fn k).run = .waiting addr d binds)
  match r.2 with
  | .done ws => if inHand then finishRing r.1 fn k addr d 1 ws else r.1
  | .refused x => if inHand then finishRing r.1 fn k addr d (refusalStatus s fn x) [] else r.1
  | .wait => r.1
  | .later => r.1

/-- The serving thread of a ring takes up a command that `accept` holds of: the one in hand that waits, or the descriptor
at HEAD, which is read. Otherwise the command does not happen. -/
def ringCommand (s : State) (fn k : Nat) (accept : List Byte → Bool) (binds : List BindDecl) : State :=
  if 63 < fn ∨ 15 < k then s
  else
    match (ringAt s fn k).run with
    | .waiting addr d b => if accept d then ringRun s fn k addr d b else s
    | .idle =>
      if !ringReady s fn k then s
      else
        let addr := headAddr s fn k
        let r := s.hostRead fn serveMaster addr 64
        if !accept r.1 || (bitAt (ringFlags s fn r.1) 0 && !fenceOpen s fn k) then s
        else
          let n := 2 ^ s.rd F.SY_RING_BASE.LOG2_ENTRIES (ringNo fn k)
          let t := r.2.wr F.SY_RING_PTRS.HEAD (ringNo fn k) ((s.rd F.SY_RING_PTRS.HEAD (ringNo fn k) + 1) % n)
          ringRun t fn k addr r.1 binds
    | _ => s

/-- A descriptor is of an opcode, once clamped. -/
def isOp (s : State) (fn op : Nat) (d : List Byte) : Bool := ringOp s fn d == op

/-- A descriptor is a TABLE_OP of an OP. -/
def isTop (s : State) (fn op : Nat) (d : List Byte) : Bool := ringOp s fn d == 0x0010 && topOp d == op

end Sys2Proof.Machine
end

