-- ==== Sys2Proof/Machine/System.lean ====
section
/-! DEFINITION. System addresses (R172, R173): a steward thread's XRD and XWR. -/

namespace Sys2Proof.Machine

/-- Space and offset of a system address. -/
def sysSpace (a : Nat) : Nat := a / 2 ^ 56
def sysOff (a : Nat) : Nat := a % 2 ^ 56

/-- Bytes of CSR space and of the staged coat. -/
def csrSize : Nat := 2 ^ 26
def coatSize : Nat := 2 ^ 30

/-- A stack is held, or the staged coat cannot be reached: an access to the address waits (R454, R593). -/
def sysWaits (s : State) (a : Nat) : Bool :=
  match sysSpace a with
  | 1 => hbState s 0 == 4
  | 2 => hbState s 1 == 4
  | 3 => hbState s 2 == 4
  | 5 => recoating s
  | _ => false

/-- The agent of a thread's CSR accesses. -/
def threadAgent (t : Tid) : Agent :=
  match masterOf t with
  | .steward n => .steward n
  | _ => .steward 0

/-- The 16 bytes that an XRD of address `a` reads: zeros where R173 says so. -/
def sysRead16 (s : State) (t : Tid) (a : Nat) : List Byte × State :=
  let x := sysOff a
  let at_ : Attr := { realm := some 0, master := some (masterOf t) }
  let zero := leBytes 16 0
  match sysSpace a with
  | 0 => if busMaster s 0 then s.hostRead 0 (some (masterOf t)) x 16 else (zero, s)
  | 4 =>
    if x < csrSize then
      let l := csrRead s (threadAgent t) x .w64
      let h := csrRead l.1 (threadAgent t) (x + 8) .w64
      (leBytes 8 l.2 ++ leBytes 8 h.2, h.1)
    else (zero, s)
  | 5 => (if x < coatSize then leBytes 8 (bar2Read s x 8) ++ leBytes 8 (bar2Read s (x + 8) 8) else zero, s)
  | sp => if 1 ≤ sp ∧ sp ≤ 3 ∧ inStack s (sp - 1) x = true then stackRead s (sp - 1) 3 x 16 at_ else (zero, s)

/-- An XWR's 8 bytes reach their address; those that R173 discards do not. -/
def sysWrite8 (s : State) (t : Tid) (a : Nat) (v : Word) : State :=
  let x := sysOff a
  let at_ : Attr := { realm := some 0, master := some (masterOf t) }
  let bs := leBytes 8 v.toNat
  match sysSpace a with
  | 0 => if busMaster s 0 then s.hostWrite 0 (some (masterOf t)) x bs else s
  | 4 => if x < csrSize then csrWrite s (threadAgent t) x .w64 v.toNat else s
  | 5 => if x < coatSize then coatStore s x bs else s
  | sp => if 1 ≤ sp ∧ sp ≤ 3 ∧ inStack s (sp - 1) x = true then stackWrite s (sp - 1) x bs at_ else s

/-- The reply of an XRD is delivered. -/
def xrdAnswer (s : State) (r : Req) (a : Nat) : State :=
  let x := sysRead16 s r.tid a
  deliverReply x.2 r (BitVec.ofNat 64 (leAt x.1 0 8)) (BitVec.ofNat 64 (leAt x.1 8 8))

/-- An earlier XWR of the thread to the bytes that an XRD of address `a` reads still waits (R174). -/
def xrdBehind (s : State) (t : Tid) (a : Nat) : Bool :=
  s.coat.waits.any (fun w =>
    match w with
    | .xwr u b _ => u == t && decide (a < b + 8 ∧ b < a + 16)
    | _ => false)

/-- An XWR of a thread waits: for its address, or behind an earlier one of the thread (R174, R454, R593). -/
def xwrWaits (s : State) (t : Tid) (a : Nat) : Bool :=
  sysWaits s a || s.coat.waits.any (fun w =>
    match w with
    | .xwr u _ _ => u == t
    | _ => false)

/-- XRD_REPLY. The bytes are read and delivered; a read of the staged coat waits while a recoat runs, one of a held stack
until its release, and one of bytes that an XWR of the thread is still to write until it has (R169, R174, R454, R593). -/
def execXrdReply (req : Nat) (s : State) : Host.Outcome State Fault Refusal :=
  match findReq s req with
  | some r =>
    match r.kind with
    | .xrd a =>
      if sysSpace a = 5 ∧ recoating s = true then
        .next (if s.coat.waits.contains (.xrd req) then s
          else addWait s (.xrd req))
      else if sysWaits s a || xrdBehind s r.tid a then .next s
      else .next (xrdAnswer s r a)
    | _ => .next s
  | none => .next s

/-- XWR. Posted write of the 8 bytes of B at system address A, low 3 bits taken as 0 (R169). -/
def execIXwr (t : Tid) (f : FmtA) (s : State) : Host.Outcome State Fault Refusal :=
  .next (issue s t (encA 0x65 f) .stewardOnly 1 (decide (f.d = 0 ∧ f.x = 0)) (fun s =>
    let th := s.thread t
    let a := (th.reg f.a.toNat).toNat / 8 * 8
    let v := th.reg f.b.toNat
    if xwrWaits s t a then addWait s (.xwr t a v) else sysWrite8 s t a v))

end Sys2Proof.Machine
end

