-- ==== Sys2Proof/Machine/RingCommands.lean ====
section
/-! DEFINITION. The commands of the rings, the recoat, route changes, BAR2 writes, Bus Master Enable and the punt
receive rings. -/

namespace Sys2Proof.Machine

/-! ### One command per opcode -/

/-- NOP. The NOP command, or an opcode that clamps to it, completes DONE (R59, R60). -/
def execNop (fn k : Nat) (s : State) : Host.Outcome State Fault Refusal :=
  .next (ringCommand s fn k (isOp s fn 0x0000) [])

/-- CSR_READ (R60). -/
def execCsrRead (fn k : Nat) (s : State) : Host.Outcome State Fault Refusal :=
  .next (ringCommand s fn k (isOp s fn 0x0001) [])

/-- CSR_WRITE (R60). -/
def execCsrWrite (fn k : Nat) (s : State) : Host.Outcome State Fault Refusal :=
  .next (ringCommand s fn k (isOp s fn 0x0002) [])

/-- IMAGE_STAGE. `binds` are the channel bindings that the image carries (R53, R92). -/
def execImageStage (fn k : Nat) (binds : List BindDecl) (s : State) : Host.Outcome State Fault Refusal :=
  .next (ringCommand s fn k (isOp s fn 0x0020) binds)

/-- COUNTER_SNAPSHOT (R564). -/
def execCounterSnapshot (fn k : Nat) (s : State) : Host.Outcome State Fault Refusal :=
  .next (ringCommand s fn k (isOp s fn 0x0030) [])

/-- RECOAT. Refused, or accepted: STATE becomes FLIPPING (R110). -/
def execRecoat (fn k : Nat) (s : State) : Host.Outcome State Fault Refusal :=
  .next (ringCommand s fn k (isOp s fn 0x0040) [])

/-- SIGNAL_EVENT (R60). -/
def execSignalEvent (fn k : Nat) (s : State) : Host.Outcome State Fault Refusal :=
  .next (ringCommand s fn k (isOp s fn 0x0050) [])

/-- TABLE_OP READ (R242). -/
def execTableOpRead (fn k : Nat) (s : State) : Host.Outcome State Fault Refusal :=
  .next (ringCommand s fn k (isTop s fn 0) [])

/-- TABLE_OP INSERT (R242). -/
def execTableInsert (fn k : Nat) (s : State) : Host.Outcome State Fault Refusal :=
  .next (ringCommand s fn k (isTop s fn 1) [])

/-- TABLE_OP DELETE (R242). -/
def execTableDelete (fn k : Nat) (s : State) : Host.Outcome State Fault Refusal :=
  .next (ringCommand s fn k (isTop s fn 2) [])

/-- TABLE_OP FLUSH (R242). -/
def execTableFlush (fn k : Nat) (s : State) : Host.Outcome State Fault Refusal :=
  .next (ringCommand s fn k (isTop s fn 3) [])

/-- TABLE_OP REALIGN (R234). -/
def execRealign (fn k : Nat) (s : State) : Host.Outcome State Fault Refusal :=
  .next (ringCommand s fn k (isTop s fn 4) [])

/-- TABLE_OP ASSOC_WRITE (R242). -/
def execAssocWrite (fn k : Nat) (s : State) : Host.Outcome State Fault Refusal :=
  .next (ringCommand s fn k (isTop s fn 5) [])

/-- TABLE_OP ASSOC_READ (R242). -/
def execAssocRead (fn k : Nat) (s : State) : Host.Outcome State Fault Refusal :=
  .next (ringCommand s fn k (isTop s fn 6) [])

/-- RING_COAL_TIMEOUT. DELAY_US after the first completion not yet signalled, the ring's message is sent (R63). -/
def execRingCoalTimeout (fn k : Nat) (s : State) : Host.Outcome State Fault Refusal :=
  let n := ringNo fn k
  match (ringAt s fn k).firstAt with
  | some t =>
    if fn ≤ 63 ∧ k ≤ 15 ∧ 3 ≤ abiLevel s fn ∧ s.on F.SY_RING_BASE.IRQ n = true ∧ s.rd F.SY_RING_COAL.DELAY_US n ≠ 0 then
      .next (ringMessage (reachTime s (t + s.rd F.SY_RING_COAL.DELAY_US n * 1000)) fn k)
    else .next s
  | none => .next s

/-! ### The recoat (R111, R593) -/

/-- RECOAT_FLIP. The staged slot becomes active and the generation rises by one (R111); steward threads that hold no slot
start at its start words (R177). -/
def execRecoatFlip (s : State) : Host.Outcome State Fault Refusal :=
  if s.rd F.SY_COAT_STATUS.STATE 0 = 1 then
    let slot := stagedSlot s
    let g := s.rd F.SY_COAT_STATUS.GENERATION 0
    let s := ((s.wr F.SY_COAT_STATUS.ACTIVE_SLOT 0 slot).wr F.SY_COAT_STATUS.GENERATION 0 (g + 1)).wr
      F.SY_COAT_STATUS.STATE 0 2
    .next (startCores (s.setLt (fun l => { l with standingStaged := false })) (poweredCores s))
  else .next s

/-- No packet stamped with the old coat is queued for a thread, held by one, or waiting for a handler. -/
def oldGone (s : State) : Bool :=
  let old (j : Job) : Bool := j.slot == stagedSlot s
  s.hn.threads.all (fun e => match e.2.job with
    | some j => !old j
    | none => true) &&
  s.hn.slices.all (fun e => !e.2.queue.any old && !e.2.handlers.any old)

/-- An access that has waited waits on: what it waits for has not come, or an earlier one that it stays behind still
waits (R38, R119, R174, R454, R593). -/
def waitBlocked (s : State) (w : StagedWait) : Bool :=
  match w with
  | .ring .. => recoating s
  | .orphan fn d _ => recoating s || !busMaster s fn || (ringOp s fn d == 0x0020 && stagedHeld s)
  | .bar2 .. => recoating s
  | .bar2Read .. => recoating s
  | .xrd _ => recoating s
  | .bar4Read .. => hostBehind s (.fn 0)
  | .hostWrite .. => hostBehind s (.fn 0)
  | .hostRead .. => hostBehind s (.fn 0)
  | .xwr t a _ => xwrWaits s t a

/-- Serve an access that has waited. A command whose ring has stopped finishes without a completion (R38). -/
def serveWait (s : State) (w : StagedWait) : State :=
  match w with
  | .ring fn k =>
    match (ringAt s fn k).run with
    | .waiting addr d b => ringRun s fn k addr d b
    | _ => s
  | .orphan fn d b => (ringExecute s fn none d b).1
  | .bar2 _ o wd v => bar2Host s o (leBytes wd.bytes v.toNat)
  | .bar2Read o wd => bar2ReadNow s o wd
  | .bar4Read o wd => bar4ReadNow s o wd
  | .hostWrite o wd v => csrWrite s (.fn 0) o wd v.toNat
  | .hostRead o wd => readNow s (.fn 0) o wd
  | .xwr t a v => sysWrite8 s t a v
  | .xrd req =>
    match findReq s req with
    | some r =>
      match r.kind with
      | .xrd a => xrdAnswer s r a
      | _ => s
    | none => s

/-- Serve the accesses that wait, in arrival order, those that still cannot be served waiting on. -/
def serveWaits (s : State) : State :=
  s.coat.waits.foldl (fun s w => if waitBlocked s w then addWait s w else serveWait s w)
    { s with coat := { s.coat with waits := [] } }

/-- The recoat's completion, on the ring whose command it is (R111). -/
def recoatDone (s : State) : State :=
  match s.coat.recoatBy with
  | some (fn, k) =>
    let s := { s with coat := { s.coat with recoatBy := none } }
    match (ringAt s fn k).run with
    | .recoat addr d => finishRing s fn k addr d 1 [(12, leBytes 4 (s.rd F.SY_COAT_STATUS.GENERATION 0))]
    | _ => s
  | none => s

/-- RECOAT_DRAIN_END. D: the old slot becomes the staged coat, and the waiting accesses are served in order (R111,
R593). -/
def execRecoatDrainEnd (s : State) : Host.Outcome State Fault Refusal :=
  if s.rd F.SY_COAT_STATUS.STATE 0 = 2 ∧ oldGone s = true then
    let s := setImage (s.wr F.SY_COAT_STATUS.STATE 0 0) 0 0
    .next (serveWaits (recoatTwin (restartLoads ((recoatDone s).raise 3))))
  else .next s

/-! ### Bus Master Enable (R595) -/

/-- A ring's command in hand goes on: one that waited for a host access, or a completion. One that waits for D waits
on. -/
def resumeRing (fn : Nat) (s : State) (k : Nat) : State :=
  match (ringAt s fn k).run with
  | .waiting addr d b => if s.coat.waits.contains (.ring fn k) then s else ringRun s fn k addr d b
  | .writeback ws => completeRing s fn k ws
  | _ => s

/-- BUS_MASTER_ENABLE_SET. Waiting commands and completions go on (R595, R45). -/
def execBusMasterEnableSet (fn : Nat) (s : State) : Host.Outcome State Fault Refusal :=
  if s.host.endpoint = .ready ∧ fn ≤ 63 then
    let s := State.msixFlush { s with host := { s.host with busMaster := setBit s.host.busMaster fn true } } fn
    .next (serveWaits ((List.range 16).foldl (resumeRing fn) s))
  else .next s

/-- BUS_MASTER_ENABLE_CLEAR (R595). -/
def execBusMasterEnableClear (fn : Nat) (s : State) : Host.Outcome State Fault Refusal :=
  if s.host.endpoint = .ready ∧ fn ≤ 63 then
    .next { s with host := { s.host with busMaster := setBit s.host.busMaster fn false } }
  else .next s

/-! ### Route changes (R259, R260) -/

/-- A queued route change is applied as one step, and its TABLE_OP completes. -/
def routeStep (s : State) (waiter : Option (Nat × Nat)) (d : List Byte) : State :=
  let r := topChange s d
  match waiter with
  | some (fn, k) =>
    match (ringAt r.1 fn k).run with
    | .route addr x => finishRing r.1 fn k addr x 1 (topWrites d r.2 [])
    | _ => r.1
  | none => r.1

/-- A queued job waits: a staged change, while a recoat runs (R231). -/
def jobWaits (s : State) : RouteJob → Bool
  | .op _ _ d => topStaged d && recoating s
  | .vrf .. => false

/-- ROUTE_CHANGE. The oldest change of the queue that does not wait; a VRF's routes move to its group's stage (R231, R232,
R259, R260). -/
def execRouteChange (s : State) : Host.Outcome State Fault Refusal :=
  match splitAtFirst (fun j => !jobWaits s j) s.lk.routeQ with
  | none => .next s
  | some (pre, .vrf f v _, post) => .next (moveVrf { s with lk := { s.lk with routeQ := pre ++ post } } f v)
  | some (pre, .op w _ d, post) => .next (routeStep { s with lk := { s.lk with routeQ := pre ++ post } } w d)

/-! ### The associative banks' writes (R219, R220, R245) -/

/-- The write at the head of a bank's queue is made; an ASSOC_WRITE that waits for it completes (R245). -/
def bankWrite (s : State) (b : Nat) : State :=
  match Sparse.get [] s.lk.updates b with
  | [] => s
  | w :: rest =>
    let s := { s with lk := { s.lk with
      assocBank := Sparse.set 0 s.lk.assocBank (b * 8192 + w.index) w.entry
      updates := Sparse.set [] s.lk.updates b rest
      lastUpdate := Sparse.set none s.lk.lastUpdate b (some s.clk.ns) } }
    match w.ring with
    | some (fn, k) =>
      match (ringAt s fn k).run with
      | .route addr d => finishRing s fn k addr d 1 (topWrites d .ok [])
      | _ => s
    | none => s

/-- When a bank in service may take its next write: UPD_INTERVAL cycles of the 1.5 GHz lookup clock after its last
(R220). -/
def updateDue (s : State) (b : Nat) : Nat :=
  match Sparse.get none s.lk.lastUpdate b with
  | some t => t + (s.rd F.LK_ASSOC_CFG.UPD_INTERVAL 0 * 2 + 2) / 3
  | none => 0

/-- ASSOC_BANK_UPDATE. The write at the head of a bank's queue is made, in one cycle with those of the other banks of its
gang; `delayed` searches waited for their slots. Banks out of service take no slots and wait for no interval (R219,
R220). -/
def execAssocBankUpdate (bank delayed : Nat) (s : State) : Host.Outcome State Fault Refusal :=
  match Sparse.get [] s.lk.updates bank with
  | [] => .next s
  | w :: _ =>
    let banks := (gangBanks s (bank * 8192)).filter (fun b =>
      ((Sparse.get [] s.lk.updates b).head?).any (fun x => x.index == w.index))
    let busy := banks.filter (fun b => !bankOos s b)
    let s := reachTime s (greatestOf (busy.map (updateDue s)))
    let s := banks.foldl bankWrite s
    let s := if delayed = 0 then s else busy.foldl (fun s b => s.count 194 (some b) delayed {}) s
    .next (admitHeld s)

/-! ### BAR2 (R31, R55, R593) -/

/-- BAR2_WRITE. The PF writes the staged coat (R35, R55); until SERVICE_READY is 1 it is refused, and it waits while a
recoat runs. -/
def execBar2Write (fn offset : Nat) (width : Width) (value : Word) (s : State) : Host.Outcome State Fault Refusal :=
  if fn ≠ 0 ∨ 2 ^ 30 ≤ offset ∨ s.host.endpoint ≠ .ready then .next s
  else
    let n := width.bytes
    let o := offset / n * n
    if !s.on F.SY_IMAGE_STATUS.SERVICE_READY 0 then .next (refuse s)
    else if recoating s then .next (addWait s (.bar2 fn o width value))
    else .next (bar2Host s o (leBytes n value.toNat))

/-! ### Punt receive rings (R64, R65, R301) -/

/-- A realm's punt ring has room. -/
def puntRoom (s : State) (n : Nat) : Bool :=
  s.on F.SY_PUNT_BASE.ENABLE n && realmExists s n && busMaster s n &&
  s.rd F.SY_PUNT_PTRS.HEAD n != s.rd F.SY_PUNT_PTRS.TAIL n

/-- A packet is written to the buffer of the descriptor at HEAD, then the descriptor, and the message is sent. -/
def puntWrite (s : State) (n : Nat) (p : Pkt) : State :=
  let head := s.rd F.SY_PUNT_PTRS.HEAD n
  let at_ := s.rd F.SY_PUNT_BASE.BASE n * 65536 + 16 * head
  let r := s.hostRead n none at_ 8
  let bytes := tkBytes p.withLength.ticket ++ p.data
  let size := 2 ^ s.rd F.SY_PUNT_BASE.BUF_LOG2 n
  let cut := bytes.take size
  let status := if size < bytes.length then 2 else 1
  let s := r.2.hostWrite n none (leNat r.1 / 64 * 64) cut
  let s := s.hostWrite n none (at_ + 8)
    (leBytes 4 cut.length ++ leBytes 1 status ++ leBytes 1 (Tk.tc p.ticket) ++ leBytes 2 (Tk.source p.ticket))
  let s := s.wr F.SY_PUNT_PTRS.HEAD n ((head + 1) % 2 ^ s.rd F.SY_PUNT_BASE.LOG2_ENTRIES n)
  if !s.on F.SY_PUNT_BASE.IRQ n then s
  else if n = 0 then s.raise 5 else s.msix n 16

/-- PUNT_DELIVERY. Port scheduler 192 + n chooses a packet for the host memory of realm n (R65, R301). -/
def execPuntDelivery (realm : Nat) (s : State) : Host.Outcome State Fault Refusal :=
  if 63 < realm ∨ diesOn s = false ∨ puntRoom s realm = false then .next s
  else
    let d := 192 + realm
    let r := choosePort s d
    match r.2 with
    | .head path x =>
      let t := takeChosen r.1 (Elem.port d).code path x
      if !t.2 then .next (flowCheck t.1 d)
      else .next (flowCheck (releaseBuf (puntWrite t.1 realm x.pkt) x.handle) d)
    | _ => .next (flowCheck r.1 d)

end Sys2Proof.Machine
end

