-- ==== Sys2Proof/Machine/Health.lean ====
section
/-! DEFINITION. The health report (R566 to R569). -/

namespace Sys2Proof.Machine

/-- What the interval counts are taken from: events, and keys from 4,096 for counts that other state keeps: HBM errors
of a stack, fault records, and unpaired decisions of the lead and of the follower. -/
def intervalSource (s : State) (k : Nat) : Nat :=
  if k < 4096 then Sparse.get 0 s.cnt.events k
  else if k < 4099 then Sparse.get 0 s.hb.corrected (k - 4096)
  else if k < 4102 then Sparse.get 0 s.hb.uncorrected (k - 4099)
  else if k = 4102 then s.rd F.HN_FAULT_HEAD.TOTAL 0 + s.rd F.HN_FAULT_HEAD.TOTAL 1
  else Sparse.get 0 s.cnt.objects (pairKey 718 (k - 4103))

/-- A count since the previous report, saturating in 32 bits. -/
def interval (s : State) (k : Nat) : Nat := min (intervalSource s k - Sparse.get 0 s.cnt.reportBase k) (2 ^ 32 - 1)

/-- Every interval source of a report. -/
def intervalKeys : List Nat :=
  [65, 64, 452, 451, 326, 323, 67, 580, 582, 897, 1090, 202, 716, 717, 714, 705] ++ (List.range 9).map (4096 + ·)

/-- A bit mask of the numbers below `n` that `p` holds of. -/
def maskOf (n : Nat) (p : Nat → Bool) : Nat := (List.range n).foldl (fun m i => if p i then m + 2 ^ i else m) 0

/-- A sensor's temperature in °C, as a signed byte; 0 before its first sample. -/
def sensorByte (s : State) (k : Nat) : Nat :=
  match sensor s k with
  | some x => unsigned 8 (x / 1000)
  | none => 0

/-- Bytes 0 to 135, with the CRC as 0. -/
def reportHead (s : State) (seq : Nat) : List Byte :=
  [0x48, 0x4C, 0x54, 0x48] ++ leBytes 1 1 ++ leBytes 1 s.hallmark ++ leBytes 1 (myId s) ++ leBytes 1 (powerState s) ++
    leBytes 4 0 ++ leBytes 4 (s.rd F.SY_COAT_STATUS.GENERATION 0) ++ leBytes 8 seq ++ leBytes 8 (ptpTime s) ++
    leBytes 8 (lifeSeconds s) ++
    leBytes 1 (s.rd F.SY_COAT_STATUS.STATE 0 + 4 * activeSlot s) ++
    leBytes 1 (tnState s + 8 * flag (tnLead s) + 16 * s.rd F.TN_STATUS.SUSPECT 0 + 32 * flag (tnLink s)) ++
    leBytes 2 (s.rd F.LT_SUPPLY.VIN_MV 0 / 10) ++ leBytes 2 (s.rd F.LT_SUPPLY.VAUX_MV 0 / 10) ++
    leBytes 2 ((Sparse.get (0 : Int) s.lt.sources 45).toNat / 1000) ++
    (List.range 24).flatMap (fun k => leBytes 1 (sensorByte s k)) ++
    leBytes 4 (shownWord s .LT_THROTTLE 0 0) ++ leBytes 1 (s.rd F.LT_POWER.CAP 0) ++ leBytes 1 (s.hn.spare.getD 255) ++
    leBytes 1 (flag (svState s 64 == 0) + flag (svState s 65 == 0)) ++
    leBytes 1 ((List.range 144).filter (fun u => unitExists u && svState s u == 7)).length ++
    leBytes 4 (s.rd F.HN_DISP_CTRL.ACTIVE 0) ++ leBytes 6 (maskOf 48 (laneUp s)) ++ leBytes 2 0 ++
    leBytes 4 (maskOf 32 (portServes s)) ++ (List.range 3).flatMap (fun i => leBytes 1 (hbState s i)) ++ leBytes 1 0 ++
    (List.range 6).flatMap (fun i => leBytes 4 (interval s (4096 + i))) ++
    leBytes 1 (frState s) ++ leBytes 1 0 ++ leBytes 2 (8 * stageUsed s) ++ leBytes 8 (s.rd F.FR_DURABLE.SEQ 0)

/-- Bytes 136 to 191. -/
def reportCounts (s : State) : List Byte :=
  let n (k : Nat) : List Byte := leBytes 4 (interval s k)
  n 65 ++ n 64 ++ n 452 ++ n 451 ++ (if s.hallmark = 1 then leBytes 4 0 else n 326) ++ n 323 ++ n 67 ++ n 4102 ++ n 580 ++
    n 582 ++ n 897 ++ n 1090 ++ leBytes 4 ((s.bm.published.filter (fun e => leakNow s e.1)).length) ++ n 202

/-- Bytes 192 to 255 from this module's compare store. -/
def reportDecisions (s : State) : List Byte :=
  let n (k : Nat) : List Byte := leBytes 4 (interval s k)
  let last := s.tn.lastDiv.getD (0, 0, 0, 0, 0)
  n 716 ++ n 717 ++ n 4103 ++ n 4104 ++ leBytes 8 s.tn.divTotal ++ leBytes 2 last.1 ++ leBytes 2 last.2.1 ++
    leBytes 4 last.2.2.1.toNat ++ leBytes 4 last.2.2.2.1.toNat ++ leBytes 8 last.2.2.2.2 ++
    leBytes 4 (Sparse.get 0 s.cnt.events 715) ++ n 714 ++ n 705 ++ leBytes 8 0

/-- Bytes 192 to 255 (R567): the lead's own, the follower's copy of them, or zeros. -/
def reportTail (s : State) : List Byte :=
  if s.hallmark = 1 ∨ tnState s < 2 ∨ tnLevel s < 2 then leBytes 64 0
  else if tnLead s then reportDecisions s
  else slice s.cnt.leadPart 0 64

/-- The 256 bytes of report `seq`. -/
def composeReport (s : State) (seq : Nat) : List Byte :=
  let b := reportHead s seq ++ reportCounts s ++ reportTail s
  splice b 8 (leBytes 4 (crc32c b))

/-- The report goes to the host, when it may (R568). -/
def reportToHost (s : State) (seq : Nat) (b : List Byte) : State :=
  if s.on F.PC_HR_CTRL.EN 0 && busMaster s 0 then
    (s.hostWrite 0 none (s.rd F.PC_HR_CTRL.BASE 0 * 256 + 256 * (seq % 2 ^ s.rd F.PC_HR_CTRL.LOG2_SLOTS 0)) b).raise 2
  else s.count 1156 none 1 {}

/-- HEALTH_REPORT. Every 100 ms of Varton time while the dies are powered (R566, R568). -/
def execHealthReport (s : State) : Host.Outcome State Fault Refusal :=
  if !s.cnt.reporting || !diesOn s then .next s
  else
    let s := reachTime s s.cnt.reportDue
    let seq := s.rd F.PC_HR_STATUS.SEQ 0 + 1
    let b := composeReport s seq
    let base := intervalKeys.foldl (fun m k => Sparse.set 0 m k (intervalSource s k)) s.cnt.reportBase
    let s := { s with cnt := { s.cnt with
      reportBase := base
      reportDue := s.cnt.reportDue + 100000000
      lathStore := Sparse.set [] s.cnt.lathStore (seq % 64) b } }
    let s := reportToHost (s.wr F.PC_HR_STATUS.SEQ 0 seq) seq b
    .next (if tnLink s then sendTwin s (.report b) else s)

/-- TWIN_REPORT_RECEIVE. The twin's report replaces TN_TWIN_REPORT whole (R568). -/
def execTwinReportReceive (report : List Byte) (s : State) : Host.Outcome State Fault Refusal :=
  if tnLink s = true ∧ report.length = 256 then
    .next ({ s with cnt := { s.cnt with leadPart := report.drop 192 } }.wrWide F.TN_TWIN_REPORT.REPORT 0 (leNat report))
  else .next s

end Sys2Proof.Machine
end

