-- ==== Sys2Proof/Machine/Start.lean ====
section
/-! DEFINITION. The start: the dies leave reset, the start writes, the load of the coat and its activation (R50, R75, R493,
R546, R547, R553 to R555, R576). -/

namespace Sys2Proof.Machine

/-! ### Registers and units as a start sets them -/

/-- LEVEL and MAX of SY_ABI_SELECT at reset: the active hallmark (R48). -/
def abiResets (s : State) : State :=
  let h := s.hallmark
  if h = 3 then s else (List.range 64).foldl (fun s n =>
    (s.wr F.SY_ABI_SELECT.LEVEL n h).wr F.SY_ABI_SELECT.MAX n h) s

/-- Reset values that the hallmark decides (R48, R51, R343). -/
def hallmarkResets (s : State) : State :=
  let h := s.hallmark
  let s := abiResets s
  if h = 1 then
    let s := (s.wr F.HN_DISP_CTRL.WATCHDOG_US 0 40).wr F.LK_ASSOC_CFG.UPD_INTERVAL 0 32
    (List.range 48).foldl (fun s k => s.wr F.FB_LINK.LEVELS k 2) s
  else s

/-- ACTIVE takes PIN's value (R50). -/
def takeHallmark (s : State) : State :=
  let pin := s.rd F.SY_HALLMARK.PIN 0
  if pin = s.hallmark then s else lifeEvent (s.wr F.SY_HALLMARK.ACTIVE 0 pin) 12 0 pin

/-- A unit whose command was running is out of service (R493); the mismatches of reinstatements before the start are gone. -/
def settleUnits (s : State) : State :=
  (List.range 144).foldl (fun s u =>
    let s := if unitExists u then s.wr F.SY_SVC_UNIT.MISMATCH u 0 else s
    let st := svState s u
    if unitExists u && (st == 2 || st == 4 || st == 5 || st == 6) then s.setSv u 3 else s) s

/-- The slices that are not out of service form the active list, in ascending order, and the spare (R75). -/
def formActive (s : State) : State :=
  let up := (List.range 17).filter (fun n => svState s n == 0 || svState s n == 1)
  let act := up.take 16
  let spare := up[16]?
  let s := act.zipIdx.foldl (fun s x => (s.setSv x.1 0).wr F.SY_SVC_UNIT.STANDS_FOR x.1 x.2) s
  let s := match spare with
    | some n => (s.setSv n 1).wr F.SY_SVC_UNIT.STANDS_FOR n 63
    | none => s
  let s := s.updLife (fun l => { l with spareSlice := spare.getD 255 })
  syncActive { s with hn := { s.hn with
    active := (List.range 16).map (fun i => act[i]?), spare := spare } }

/-- Spare banks that stand for no bank are spare, and a bank that is out of service with none in its place is shown so
(R493, R501). -/
def formBanks (s : State) : State :=
  let s := [64, 65].foldl (fun s u => if svState s u = 0 ∧ standsFor s u = 63 then s.setSv u 1 else s) s
  (List.range 32).foldl (fun s b =>
    let st := svState s (32 + b)
    if (st = 3 ∨ st = 7) ∧ bankUnit s b = 32 + b then s.wr F.LK_BANK_OOS.OOS 0 (setBit (s.rd F.LK_BANK_OOS.OOS 0) b true)
    else s) s

/-- Retired channels and repaired rows of the stacks (R463, R464, R493). -/
def formStacks (s : State) : State :=
  (List.range 3).foldl (fun s st =>
    let s := match Sparse.get none s.hb.yielded st with
      | some _ => s.wr F.HB_STATUS.RETIRED st (2 ^ (Sparse.get 0 s.lt.life.hbmRetired st - 1))
      | none => s
    s.wr F.HB_STATUS.REPAIRS st (Sparse.get 0 s.lt.life.hbmRepairs st)) s

/-! ### Start writes (R553, R554) -/

/-- The coats that a start tries, in order, before the base coat (R552, R553). -/
def bootOrder (s : State) : List BootCoat :=
  match s.lt.transition with
  | some (.dormantToHoldover _) => [.holdover, .standing]
  | _ => [.standing]

/-- The coat of the flash store. -/
def bootFlash (s : State) : BootCoat → Option FlashCoat
  | .standing => s.lt.standing
  | .holdover => s.lt.holdover
  | _ => none

/-- Every start-write section of an image passes its check. -/
def startWritesPass (s : State) : Nat → List Byte → Bool
  | 0, _ => true
  | n + 1, bs =>
    match nextSection bs with
    | none => true
    | some (b, rest) => (leAt b 0 2 != 0x40 || (startSection s b).2) && startWritesPass s n rest

/-- One start write: an access of its width with owner privilege; its register is noted. -/
def startWrite (s : State) (w : Nat × Nat × Nat) : State :=
  match placeAt 0 w.1 with
  | none => refuse s
  | some (p, _) =>
    let t := csrWrite s .startWrite w.1 (widthOf w.2.1) w.2.2
    match p with
    | .reg r i _ => t.setLt (fun l => { l with started := l.started ++ [(r.code, i, 0)] })
    | _ => t

/-- The start writes of a coat whose header and start writes pass. -/
def applyStartWrites (s : State) (c : FlashCoat) : State :=
  let n := imageSections c.image
  let body := c.image.drop 64
  if headerCheck s c.image c.image.length = none ∧ startWritesPass s n body = true then
    (startWrites n body).foldl startWrite s
  else s

/-- The registers that start writes have written return to their reset values (R553). -/
def undoStartWrites (s : State) : State :=
  let hit (k : Nat) : Bool :=
    let ri := unpair (unpair k).1
    s.lt.started.any (fun x => x.1 == ri.1 && x.2.1 == ri.2)
  hallmarkResets { s with
    csr := s.csr.filter (fun e => !hit e.1)
    lt := { s.lt with started := [] } }

/-! ### The dies leave reset -/

/-- The rails are in regulation, the dies are in reset, and a start runs. -/
def exitReady (s : State) : Bool :=
  decide (s.lt.rails = 9) && !s.clk.diesOn &&
  (match s.lt.transition with
    | some (.start _) => true
    | some (.dormantToHoldover _) => true
    | _ => false)

/-- The root ports are powered at a start to Partial or Full (R541). -/
def rootsStart (s : State) : Bool :=
  match s.lt.transition with
  | some (.start _) => true
  | _ => false

/-- The dies leave reset, and the start writes of the first coat to be tried are applied. The first ageing tick comes
after TICK_MS as these have left it (log entry 153). -/
def leaveReset (s : State) : State :=
  let s := { s with clk := { s.clk with diesOn := true, ns := 0, ptp := 0, ptpFrac := 0 } }
  let s := s.updLife (fun l => { l with cycles := l.cycles + 1 })
  let s := { s with hb := { s.hb with firmware := true } }
  let s := s.setLt (fun l => { l with rootPower := rootsStart s })
  let s := (List.range 3).foldl (fun s st => s.wr F.HB_STATUS.STATE st 1) s
  let s := formStacks (formBanks (formActive (settleUnits (hallmarkResets (takeHallmark s)))))
  let s := match (bootOrder s).findSome? (bootFlash s) with
    | some c => applyStartWrites s c
    | none => s
  { s with lk := { s.lk with tickDue := s.rd F.LK_AGE_CTRL.TICK_MS 0 * 1000000 } }

/-- DIE_RESET_EXIT (R554, R555). -/
def execDieResetExit (s : State) : Host.Outcome State Fault Refusal :=
  if exitReady s then .next (leaveReset s) else .next s

/-- REFCLK_STABLE. REFCLK_SYS was absent at t0 + 40 ms, which the event log shows, and has now been stable for 1 ms: the
dies leave reset (R576). -/
def execRefclkStable (s : State) : Host.Outcome State Fault Refusal :=
  if exitReady s then .next (leaveReset (logPlain s 3 0)) else .next s

/-! ### The coat loads (R553) -/

/-- A coat is tried: `none` when it is loaded, 0 when the store holds none, or the STATE of its refusal. An image that
neither flash device gives fails its digest. -/
def bootTry (s : State) (k : BootCoat) (readable : Bool) : State × Option Nat :=
  match bootFlash s k with
  | none => (s, some 0)
  | some c => if readable then startLoad s c else (s, some 3)

/-- What a refused coat leaves: nothing but the record of the fall-back. -/
def bootRefused (s : State) (st : Nat) : State :=
  ((undoStartWrites (discardCoats s)).wr F.LT_BOOT.FALLBACK 0 1).wr F.LT_BOOT.REASON 0 st

/-- Try coats in order, and the base coat at last; the start writes of a coat that replaces a refused one are applied
before it loads. -/
def bootLoad (readable : Bool) : List BootCoat → State → State × BootCoat
  | [], s => (s, .base)
  | k :: ks, s =>
    let r := bootTry s k readable
    match r.2 with
    | none => (r.1, k)
    | some 0 => bootLoad readable ks s
    | some st =>
      let t := bootRefused r.1 st
      bootLoad readable ks (match ks.findSome? (bootFlash t) with
        | some c => applyStartWrites t c
        | none => t)

def BootCoat.code : BootCoat → Nat
  | .none => 0
  | .standing => 1
  | .holdover => 2
  | .base => 3

/-- No stack is untrained or in training. -/
def stacksTrained (s : State) : Bool := (List.range 3).all (fun st => 2 ≤ hbState s st)

/-- COAT_LOAD. The coat loads into both slots, once the stacks have trained; `flash0` and `flash1` say which flash
devices read without failure (R553, R555). -/
def execCoatLoad (flash0 flash1 : Bool) (s : State) : Host.Outcome State Fault Refusal :=
  if s.clk.diesOn = true ∧ s.rd F.SY_COAT_STATUS.GENERATION 0 = 0 ∧ s.lt.loaded = .none ∧ stacksTrained s = true then
    let s := ((s.wr F.LT_BOOT.FALLBACK 0 0).wr F.LT_BOOT.REASON 0 0).wr F.LT_BOOT.FLASH0_OK 0 (flag flash0)
    let r := bootLoad (flash0 || flash1) (bootOrder s) (s.wr F.LT_BOOT.FLASH1_OK 0 (flag flash1))
    let s := (bothSlots r.1).wr F.LT_BOOT.COAT 0 r.2.code
    .next (logPlain (s.setLt (fun l => { l with loaded := r.2 })) 7 0)
  else .next s

/-! ### The coat becomes active (R108, R546, R555) -/

/-- Lath time at which the running transition began. -/
def transitionStart (s : State) : Nat :=
  match s.lt.transition with
  | some (.start t) => t
  | some (.dormantToHoldover t) => t
  | _ => s.clk.lath

/-- Generation 1 runs: steward threads start, and the rings are served. -/
def activateCoat (s : State) (cores : List Nat) : State :=
  let s := (s.wr F.SY_COAT_STATUS.ACTIVE_SLOT 0 0).wr F.SY_COAT_STATUS.GENERATION 0 1
  let s := frescoCompare (startCores (setService s true) cores)
  let s := s.wr F.LT_BOOT.LOAD_MS 0 (min 65535 ((s.clk.lath - transitionStart s) / 1000000))
  recoatTwin { s with cnt := { s.cnt with reporting := true, reportDue := s.clk.ns + 100000000 } }

/-- COAT_ACTIVE. At a start to Partial or Full, the loaded coat becomes active and enabled ports enter service (R555). -/
def execCoatActive (s : State) : Host.Outcome State Fault Refusal :=
  match s.lt.transition with
  | some (.start _) =>
    if s.lt.loaded ≠ .none ∧ s.rd F.SY_COAT_STATUS.GENERATION 0 = 0 then
      let s := portOffEffect (activateCoat s [0, 1, 2, 3]) 0
      let full := s.rd F.LT_DOMAIN.SLICE_OFF 0 = 0 ∧ s.rd F.LT_DOMAIN.PORT_OFF 0 = 0
      .next (enterPower s (if full then 4 else 3))
    else .next s
  | _ => .next s

/-- DORMANT_TO_HOLDOVER. At a start to Holdover, the holdover coat loads and becomes active; the standing coat is then to
load into the staged slot (R546, R547). -/
def execDormantToHoldover (flash0 flash1 : Bool) (s : State) : Host.Outcome State Fault Refusal :=
  match s.lt.transition with
  | some (.dormantToHoldover _) =>
    match execCoatLoad flash0 flash1 s with
    | .next t =>
      if t.lt.loaded ≠ .none ∧ t.rd F.SY_COAT_STATUS.GENERATION 0 = 0 then
        let t := enterHoldover (activateCoat t [0, 3])
        let t := switchOff t
        .next (enterPower (t.setLt (fun l => { l with standingDue := decide (l.loaded = .holdover) })) 2)
      else .next t
    | o => o
  | _ => .next s

/-! ### The standing coat behind a holdover coat (R547) -/

/-- The staged view is emptied: every descriptor and entry loses its S bit. -/
def emptyStaged (s : State) : State :=
  let b := bitS s
  let without (c : Nat) : Nat := c &&& (3 - b)
  let s : State := { s with lk := { s.lk with
    slots := s.lk.slots.filterMap (fun (e : Nat × Option Entry) =>
      match e.2 with
      | some x => if without x.coat = 0 then none else some (e.1, some { x with coat := without x.coat })
      | none => none)
    routes := s.lk.routes.filterMap (fun (e : Nat × Option Route) =>
      match e.2 with
      | some x => if without x.coat = 0 then none else some (e.1, some { x with coat := without x.coat })
      | none => none) } }
  let s : State := { s with lk := { s.lk with stages := stagesOf s } }
  let s := (knownTables s).foldl (fun s t =>
    if tblCoat s t = without (tblCoat s t) then s else setTableCoat s t (without (tblCoat s t))) s
  let s := s.lk.assoc.foldl (fun s e =>
    let c := assocCoat e.2
    if assocFree e.2 || c == without c then s else assocCommit s e.1 (assocFlags e.2 (without c) (decide (without c ≠ 0))) none) s
  s.updCoat (stagedSlot s) (fun _ => Coat.empty)

/-- STANDING_COAT_LOADED. The standing coat stands in the staged slot; one that fails leaves the base coat there (R547,
R553). It waits while a recoat runs (R593). -/
def execStandingCoatLoaded (s : State) : Host.Outcome State Fault Refusal :=
  if s.lt.standingDue && !recoating s then
    let s := emptyStaged s
    let s := match s.lt.standing with
      | some c =>
        let r := startLoad s c
        if r.2.isNone then r.1 else emptyStaged r.1
      | none => s
    .next (s.setLt (fun l => { l with standingDue := false, standingStaged := true }))
  else .next s

/-! ### The return from Holdover (R544) -/

/-- HOLDOVER_RETURN. Units are back and the module is in Partial or Full (R544). -/
def execHoldoverReturn (s : State) : Host.Outcome State Fault Refusal :=
  match s.lt.transition with
  | some (.fromHoldover _) =>
    if recoating s then .next s
    else
      let s := s.setLt (fun l => { l with held := false })
      let s := (List.range 17).foldl (fun s n =>
        if bitAt (s.rd F.LT_DOMAIN.SLICE_OFF 0) n then s else powerUpSlice s n true) s
      let s := serveWaits (startCores (replicasBack (banksBack s)) [1, 2])
      let off := s.rd F.LT_DOMAIN.PORT_OFF 0
      let down := ((List.range 32).filter (bitAt off ·)).flatMap (portDests s)
      let s := ((List.range 161).filter (fun d => !down.contains d)).foldl powerUpDest s
      let full := s.rd F.LT_DOMAIN.SLICE_OFF 0 = 0 ∧ off = 0
      .next (enterPower (placeAll (trainLanes s)) (if full then 4 else 3))
  | _ => .next s

/-! ### The endpoint's reset (R548, R549) -/

/-- PERST_ASSERT. The endpoint's functions and the registers that face the host return to reset; rings stop, and
what was not issued is lost (R548, R65). A command in hand is still to finish, without its completion. -/
def execPerstAssert (s : State) : Host.Outcome State Fault Refusal :=
  let s := s.resetRegs (fun r => r = .SY_REALM_CTRL ∨ r = .SY_INT_ROUTE ∨ r = .SY_ABI_SELECT ∨ r = .SY_RING_BASE ∨
    r = .SY_RING_PTRS ∨ r = .SY_PUNT_BASE ∨ r = .SY_PUNT_PTRS)
  let s := abiResets ((List.range 64).foldl (fun s fn => (List.range 16).foldl (fun s k => stopRing s fn k) s) s)
  .next { s with
    host := { HostSt.reset with mem := s.host.mem }
    coat := { s.coat with waits := s.coat.waits.filter (fun w => match w with
      | .orphan .. => true
      | .xwr .. => true
      | .xrd .. => true
      | _ => false) } }

end Sys2Proof.Machine
end

