-- ==== Sys2Proof/Machine/Trowel.lean ====
section
/-! DEFINITION. Trowel instructions and moves (R427 to R441). -/

namespace Sys2Proof.Machine

/-! ### Reaching a system address for a channel (R427, R430) -/

/-- A channel's realm, and what its accesses carry (R560). -/
def twRealm (s : State) (c : Nat) : Nat := s.rd F.TW_CH_CTRL.REALM c
def twAttr (s : State) (c a : Nat) : Attr := { realm := some (twRealm s c), master := some (.trowel c), addr := some a }

/-- `n` bytes from an offset lie within a space (R172, R464). -/
def inSpace (s : State) (space x n : Nat) : Bool :=
  match space with
  | 0 => decide (x + n ≤ 2 ^ 56)
  | 4 => decide (x + n ≤ csrSize)
  | 5 => decide (x + n ≤ coatSize)
  | sp =>
    if 1 ≤ sp ∧ sp ≤ 3 then
      decide (x + n ≤ stackSize) &&
      (match Sparse.get none s.hb.yielded (sp - 1) with
        | some y => decide (x + n ≤ y * yieldSize ∨ (y + 1) * yieldSize ≤ x)
        | none => true)
    else false

/-- The fault of a channel's access to `n` bytes of a space, if it has one. -/
def twAccessFault (s : State) (c space x n : Nat) : Option Nat :=
  if twRealm s c ≠ 0 ∧ space ≠ 0 then some 3
  else if !inSpace s space x n then some 2
  else if space = 0 ∧ busMaster s (twRealm s c) = false then some 5
  else none

/-- Bytes of CSR space. -/
def csrBytes (s : State) : List (Nat × List Byte) → List Byte × State
  | [] => ([], s)
  | (o, l) :: ps =>
    let r := csrRead s .startWrite (o / 8 * 8) .w64
    let rest := csrBytes r.1 ps
    (slice (leBytes 8 r.2) (o % 8) l.length ++ rest.1, rest.2)

/-- The channel reads `n` bytes within a space. -/
def twGet (s : State) (c space x n : Nat) : List Byte × State :=
  match space with
  | 0 => s.hostRead (twRealm s c) (some (.trowel c)) x n
  | 4 => csrBytes s (pieces8 (n + 1) x (leBytes n 0))
  | 5 => ((pieces8 (n + 1) x (leBytes n 0)).flatMap (fun p => leBytes p.2.length (bar2Read s p.1 p.2.length)), s)
  | sp => stackRead s (sp - 1) 2 x n (twAttr s c 0)

/-- The channel writes bytes within a space. -/
def twPut (s : State) (c space x : Nat) (bs : List Byte) : State :=
  match space with
  | 0 => s.hostWrite (twRealm s c) (some (.trowel c)) x bs
  | 4 => csrStore s .startWrite x bs
  | 5 => coatStore s x bs
  | sp => stackWrite s (sp - 1) x bs (twAttr s c 0)

/-! ### Faults and stops (R431, R439) -/

/-- A channel whose moves are complete enters FAULTED, or IDLE after END with HALT. -/
def twSettle (s : State) (c : Nat) : State :=
  let ch := twChan s c
  if !ch.moves.isEmpty then s
  else if ch.faulting then ((s.setTw c { ch with faulting := false }).setTwState c 5).raise 0
  else if ch.halting then (s.setTw c { ch with halting := false }).setTwState c 0
  else s

/-- A channel faults at the instruction at address `pc`. -/
def twFault (s : State) (c code pc : Nat) : State :=
  let ch := twChan s c
  if ch.faulting then s
  else
    let s := s.setTw c { ch with pc := pc, faulting := true, halting := false, wait := none }
    twSettle (s.wr F.TW_CH_STATUS.FAULT c code) c

/-! ### Fetch (R429, R440) -/

/-- The legal forms of an instruction word. -/
def twLegal (w : Nat) : Bool :=
  match w / 2 ^ 60 with
  | 1 => bitsOf w 56 2 == 0 && bitsOf w 24 8 == 0
  | 2 => bitsOf w 52 8 == 0 && bitsOf w 32 20 != 0
  | 3 => bitsOf w 9 51 == 0 && bitsOf w 7 1 == 0 && (bitAt w 8 || decide (bitsOf w 0 7 ≤ 15))
  | 4 => bitsOf w 7 53 == 0
  | 5 => bitsOf w 59 1 == 0 && bitsOf w 0 3 == 0
  | 6 => bitsOf w 1 59 == 0
  | _ => false

/-- A channel in RUNNING executes the instruction at its program counter when that is one of opcode `op`. `body`
takes the state after the fetch and the word; `hostError` says that a fetch from host memory ends with an error or times
out (R430). -/
def twIssue (s : State) (c op : Nat) (hostError : Bool) (body : State → Nat → State) : State :=
  let ch := twChan s c
  if 128 ≤ c ∨ diesOn s = false ∨ twState s c ≠ 2 ∨ ch.halting = true ∨ ch.faulting = true ∨ sysWaits s ch.pc = true then s
  else
    match twAccessFault s c (sysSpace ch.pc) (sysOff ch.pc) 8 with
    | some f => twFault s c f ch.pc
    | none =>
      if hostError = true ∧ sysSpace ch.pc = 0 then twFault s c 5 ch.pc
      else
      let r := twGet s c (sysSpace ch.pc) (sysOff ch.pc) 8
      let w := leNat r.1
      if !twLegal w then twFault r.2 c 1 ch.pc
      else if w / 2 ^ 60 ≠ op then s
      else body r.2 w

/-- The channel goes on at `pc`. -/
def twGoTo (s : State) (c pc : Nat) : State := s.setTw c { (twChan s c) with pc := pc % 2 ^ 64 }

/-! ### Instructions -/

/-- What a MOVE names (R429, R432): its ranges, with the strides of the open loop's iteration. `none` where an offset
leaves its space. -/
def moveEnd (base i stride : Nat) : Nat × Nat := (sysSpace base, sysOff base + i * 64 * stride)

/-- A MOVE whose address words are at hand begins. -/
def beginMove (s : State) (c w src dst : Nat) : State :=
  let ch := twChan s c
  let len := bitsOf w 0 24 + 1
  let i := s.rd F.TW_CH_STATUS.LOOP_I c
  let a := moveEnd src i (bitsOf w 44 12)
  let b := moveEnd dst i (bitsOf w 32 12)
  match (twAccessFault s c a.1 a.2 len).orElse (fun _ => twAccessFault s c b.1 b.2 len) with
  | some f => twFault s c f ch.pc
  | none =>
    let m : Move := ⟨a.1 * 2 ^ 56 + a.2, b.1 * 2 ^ 56 + b.2, len, bitAt w 59, ch.pc, 0, false⟩
    syncInflight (s.setTw c { ch with moves := ch.moves ++ [m], pc := (ch.pc + 24) % 2 ^ 64 }) c

/-- MOVE. Begins copying, unless it waits for earlier moves (R432, R433). -/
def execTwMove (c : Nat) (hostError : Bool) (s : State) : Host.Outcome State Fault Refusal :=
  let ch := twChan s c
  .next (twIssue s c 1 hostError (fun t w =>
    if 16 ≤ ch.moves.length ∨ (bitAt w 58 = true ∧ ch.moves ≠ []) then s
    else
      match twAccessFault t c (sysSpace ch.pc) (sysOff ch.pc) 24 with
      | some f => twFault t c f ch.pc
      | none =>
        let r := twGet t c (sysSpace ch.pc) (sysOff ch.pc + 8) 16
        beginMove r.2 c w (leAt r.1 0 8) (leAt r.1 8 8)))

/-- LOOP (R435). -/
def execTwLoop (c : Nat) (hostError : Bool) (s : State) : Host.Outcome State Fault Refusal :=
  .next (twIssue s c 2 hostError (fun s w =>
    let ch := twChan s c
    let n := bitsOf w 0 32
    match ch.openLoop with
    | some a =>
      if a ≠ ch.pc then twFault s c 4 ch.pc
      else
        let i := s.rd F.TW_CH_STATUS.LOOP_I c + 1
        if n = 0 ∨ i < n then
          (s.wr F.TW_CH_STATUS.LOOP_I c (i % 2 ^ 32)).setTw c { ch with pc := (ch.pc + 2 ^ 64 - 8 * bitsOf w 32 20) % 2 ^ 64 }
        else (s.wr F.TW_CH_STATUS.LOOP_I c 0).setTw c { ch with openLoop := none, pc := (ch.pc + 8) % 2 ^ 64 }
    | none =>
      if n = 1 then twGoTo s c (ch.pc + 8)
      else
        (s.wr F.TW_CH_STATUS.LOOP_I c 1).setTw c
          { ch with openLoop := some ch.pc, pc := (ch.pc + 2 ^ 64 - 8 * bitsOf w 32 20) % 2 ^ 64 }))

/-- WAIT (R437). -/
def execTwWait (c : Nat) (hostError : Bool) (s : State) : Host.Outcome State Fault Refusal :=
  .next (twIssue s c 3 hostError (fun s w =>
    let ch := twChan s c
    let n := bitsOf w 0 7
    if bitAt w 8 then
      if bitAt ch.signals n then s.setTw c { ch with signals := setBit ch.signals n false, pc := (ch.pc + 8) % 2 ^ 64 }
      else (s.setTw c { ch with wait := some (.signal n) }).setTwState c 3
    else (s.setTw c { ch with wait := some (.timer n) }).setTwState c 3))

/-- SIGNAL. Sent once every earlier MOVE of the channel has completed (R436). -/
def execTwSignal (c : Nat) (hostError : Bool) (s : State) : Host.Outcome State Fault Refusal :=
  .next (twIssue s c 4 hostError (fun t w =>
    let ch := twChan t c
    if ch.moves ≠ [] then s else twSignalTo (twGoTo t c (ch.pc + 8)) c (bitsOf w 0 7)))

/-- LINK (R439). -/
def execTwLink (c : Nat) (hostError : Bool) (s : State) : Host.Outcome State Fault Refusal :=
  .next (twIssue s c 5 hostError (fun s w => twGoTo s c (bitsOf w 0 59)))

/-- END. HALT 1 ends the program once its moves are complete; HALT 0 parks the channel, unless DB_PEND makes it read
the slot once more (R439, R441). -/
def execTwEnd (c : Nat) (hostError : Bool) (s : State) : Host.Outcome State Fault Refusal :=
  .next (twIssue s c 6 hostError (fun s w =>
    if bitAt w 0 then twSettle (s.setTw c { (twChan s c) with halting := true }) c
    else if s.on F.TW_CH_STATUS.DB_PEND c then s.wr F.TW_CH_STATUS.DB_PEND c 0
    else s.setTwState c 4))

/-! ### A MOVE completes (R432 to R434) -/

/-- The requests of a MOVE: at most 4 KiB each, none across a 4 KiB boundary of the destination (R433). -/
def moveParts : Nat → Nat → Nat → Nat → List (Nat × Nat × Nat)
  | 0, _, _, _ => []
  | fuel + 1, src, dst, len =>
    if len = 0 then []
    else
      let n := min len (4096 - dst % 4096)
      (src, dst, n) :: moveParts fuel (src + n) (dst + n) (len - n)

/-- A MOVE's requests. -/
def Move.requests (m : Move) : List (Nat × Nat × Nat) :=
  moveParts (m.len / 4096 + 2) (sysOff m.src) (sysOff m.dst) m.len

/-- The ranges of a MOVE overlap. -/
def moveOverlaps (m : Move) : Bool := decide (m.src < m.dst + m.len ∧ m.dst < m.src + m.len)

/-- A MOVE touches host memory. -/
def moveHost (m : Move) : Bool := sysSpace m.src == 0 || sysSpace m.dst == 0

/-- A MOVE has a request ready: one not served, of spaces that do not wait. -/
def moveReady (s : State) (m : Move) : Bool :=
  decide (m.served < m.requests.length) && !(sysWaits s m.src || sysWaits s m.dst)

/-- The MOVE of a channel whose request is served next: `only`, when the channel is that MOVE's and it is ready, else its
first that is ready. -/
def readyMove (s : State) (only : Nat × Nat) (c : Nat) : Option Nat :=
  let ms := (twChan s c).moves
  let ok (i : Nat) : Bool := match ms[i]? with
    | some m => moveReady s m
    | none => false
  if c = only.1 ∧ ok only.2 = true then some only.2 else (List.range ms.length).find? ok

/-- One request of a MOVE is served. Bytes whose ranges overlap are left until the MOVE completes (R432). -/
def serveMove (s : State) (c i : Nat) : State :=
  match (twChan s c).moves[i]? with
  | none => s
  | some m =>
    let fails := moveHost m && !busMaster s (twRealm s c)
    let s := match m.requests[m.served]? with
      | some p =>
        if fails || moveOverlaps m then s
        else
          let r := twGet s c (sysSpace m.src) p.1 p.2.2
          twPut r.2 c (sysSpace m.dst) p.2.1 r.1
      | none => s
    s.setTw c { (twChan s c) with
      moves := (twChan s c).moves.set i { m with served := m.served + 1, failed := m.failed || fails } }

/-- The channel whose request is served next: the one whose turn it is while it has requests ready and WEIGHT allows, else
the next in number that has (R444). -/
def nextTurn (s : State) (only : Nat × Nat) : Option Nat :=
  let ok (c : Nat) : Bool := (readyMove s only c).isSome
  let t := s.tw.turn
  if ok t && decide (s.tw.inTurn < s.rd F.TW_CH_CTRL.WEIGHT t) then some t
  else ((List.range 128).map (fun i => (t + 1 + i) % 128)).find? ok

/-- Requests are served round-robin, WEIGHT at each turn, until the MOVE `only` of a channel has none left (R444). -/
def serveTurns (only : Nat × Nat) : Nat → State → State
  | 0, s => s
  | fuel + 1, s =>
    match (twChan s only.1).moves[only.2]? with
    | none => s
    | some m =>
      if m.requests.length ≤ m.served then s
      else
        match nextTurn s only with
        | none => s
        | some c =>
          match readyMove s only c with
          | none => s
          | some i =>
            let n := if c = s.tw.turn ∧ s.tw.inTurn < s.rd F.TW_CH_CTRL.WEIGHT c then s.tw.inTurn + 1 else 1
            serveTurns only fuel (serveMove { s with tw := { s.tw with turn := c, inTurn := n } } c i)

/-- Requests of all MOVEs begun, an upper bound of what is served before one completes. -/
def allRequests (s : State) : Nat :=
  sumOf (s.tw.chans.map (fun e => sumOf (e.2.moves.map (fun m => m.requests.length))))

/-- A counted MOVE is complete: REMAIN falls, and at 0 the channel's source fires (R434). -/
def countMove (s : State) (c : Nat) : State :=
  let n := s.rd F.TW_CH_COUNT.REMAIN c
  if n = 0 then s
  else if n = 1 then (s.wr F.TW_CH_COUNT.REMAIN c (s.rd F.TW_CH_COUNT.RELOAD c)).raise (16 + c)
  else s.wr F.TW_CH_COUNT.REMAIN c (n - 1)

/-- A MOVE completes; `failed` says that a host access failed: its destination bytes are undefined and the channel
faults at it (R431). -/
def completeMove (s : State) (c : Nat) (m : Move) (failed : Bool) : State :=
  let s := if failed || moveOverlaps m then loseBytes s m.dst m.len else s
  let s := if failed then s else s.count 1228 (some c) m.len (twAttr s c m.dst)
  let s := if m.counted then countMove s c else s
  settleLost allMoves (twSettle (if failed then twFault s c 5 m.at_ else s) c)

/-- MOVE_COMPLETE. The last byte of a MOVE is written, after the requests that the arbitration serves before it; MOVEs may
complete out of order (R433, R434, R444). -/
def execMoveComplete (c index : Nat) (hostError : Bool) (s : State) : Host.Outcome State Fault Refusal :=
  match (twChan s c).moves[index]? with
  | some m =>
    if sysWaits s m.src || sysWaits s m.dst then .next s
    else
      let s := serveTurns (c, index) (allRequests s + 1) s
      let ch := twChan s c
      let failed := moveHost m && (hostError || (match ch.moves[index]? with
        | some m' => m'.failed
        | none => false))
      let s := syncInflight (s.setTw c { ch with moves := ch.moves.eraseIdx index }) c
      .next (completeMove s c m failed)
  | none => .next s

end Sys2Proof.Machine
end

