-- ==== Sys2Proof/Machine/Dispatch.lean ====
section
/-! DEFINITION. The meaning of each command: one arm per row of the opcode table. -/

namespace Sys2Proof.Machine

/-- What a command does to everything but the queue. -/
def exec (i : Instr) (s : State) : Host.Outcome State Fault Refusal :=
  match i with
  | .registerWrite w => Sys2Proof.Machine.execRegisterWrite w s
  | .rcRead r => Sys2Proof.Machine.execRcRead r s
  | .realmDisable agent realm => Sys2Proof.Machine.execRealmDisable agent realm s
  | .ringEnable fn k value => Sys2Proof.Machine.execRingEnable fn k value s
  | .puntRingEnable fn value => Sys2Proof.Machine.execPuntRingEnable fn value s
  | .busMasterEnableSet fn => Sys2Proof.Machine.execBusMasterEnableSet fn s
  | .nop fn k => Sys2Proof.Machine.execNop fn k s
  | .csrRead fn k => Sys2Proof.Machine.execCsrRead fn k s
  | .csrWrite fn k => Sys2Proof.Machine.execCsrWrite fn k s
  | .imageStage fn k binds => Sys2Proof.Machine.execImageStage fn k binds s
  | .counterSnapshot fn k => Sys2Proof.Machine.execCounterSnapshot fn k s
  | .recoat fn k => Sys2Proof.Machine.execRecoat fn k s
  | .recoatFlip => Sys2Proof.Machine.execRecoatFlip s
  | .recoatDrainEnd => Sys2Proof.Machine.execRecoatDrainEnd s
  | .signalEvent fn k => Sys2Proof.Machine.execSignalEvent fn k s
  | .tableOpRead fn k => Sys2Proof.Machine.execTableOpRead fn k s
  | .tableInsert fn k => Sys2Proof.Machine.execTableInsert fn k s
  | .tableDelete fn k => Sys2Proof.Machine.execTableDelete fn k s
  | .tableFlush fn k => Sys2Proof.Machine.execTableFlush fn k s
  | .realign fn k => Sys2Proof.Machine.execRealign fn k s
  | .assocWrite fn k => Sys2Proof.Machine.execAssocWrite fn k s
  | .assocRead fn k => Sys2Proof.Machine.execAssocRead fn k s
  | .ringCoalTimeout fn k => Sys2Proof.Machine.execRingCoalTimeout fn k s
  | .puntDelivery realm => Sys2Proof.Machine.execPuntDelivery realm s
  | .hallmarkPinWrite agent pin => Sys2Proof.Machine.execHallmarkPinWrite agent pin s
  | .bar2Write fn offset width value => Sys2Proof.Machine.execBar2Write fn offset width value s
  | .ingressAdmission source => Sys2Proof.Machine.execIngressAdmission source s
  | .admissionEpochEnd => Sys2Proof.Machine.execAdmissionEpochEnd s
  | .dispatch side obj => Sys2Proof.Machine.execDispatch side obj s
  | .parseWalk slice => Sys2Proof.Machine.execParseWalk slice s
  | .threadTakePacket slice => Sys2Proof.Machine.execThreadTakePacket slice s
  | .iAdd t f => Sys2Proof.Machine.execIAdd t f s
  | .iSub t f => Sys2Proof.Machine.execISub t f s
  | .iAnd t f => Sys2Proof.Machine.execIAnd t f s
  | .iOr t f => Sys2Proof.Machine.execIOr t f s
  | .iXor t f => Sys2Proof.Machine.execIXor t f s
  | .iAndn t f => Sys2Proof.Machine.execIAndn t f s
  | .iShl t f => Sys2Proof.Machine.execIShl t f s
  | .iShr t f => Sys2Proof.Machine.execIShr t f s
  | .iSar t f => Sys2Proof.Machine.execISar t f s
  | .iMul t f => Sys2Proof.Machine.execIMul t f s
  | .iSel t f => Sys2Proof.Machine.execISel t f s
  | .iClz t f => Sys2Proof.Machine.execIClz t f s
  | .iBswap t f => Sys2Proof.Machine.execIBswap t f s
  | .iHash t f => Sys2Proof.Machine.execIHash t f s
  | .iCsum t f => Sys2Proof.Machine.execICsum t f s
  | .iCeq t f => Sys2Proof.Machine.execICeq t f s
  | .iCne t f => Sys2Proof.Machine.execICne t f s
  | .iCltu t f => Sys2Proof.Machine.execICltu t f s
  | .iClt t f => Sys2Proof.Machine.execIClt t f s
  | .iPlog t f => Sys2Proof.Machine.execIPlog t f s
  | .iPtog t f => Sys2Proof.Machine.execIPtog t f s
  | .iGtop t f => Sys2Proof.Machine.execIGtop t f s
  | .iLdnv t f => Sys2Proof.Machine.execILdnv t f s
  | .iStnv t f => Sys2Proof.Machine.execIStnv t f s
  | .iJr t f => Sys2Proof.Machine.execIJr t f s
  | .iCst t f => Sys2Proof.Machine.execICst t f s
  | .iAddi t f => Sys2Proof.Machine.execIAddi t f s
  | .iAndi t f => Sys2Proof.Machine.execIAndi t f s
  | .iOri t f => Sys2Proof.Machine.execIOri t f s
  | .iXori t f => Sys2Proof.Machine.execIXori t f s
  | .iShli t f => Sys2Proof.Machine.execIShli t f s
  | .iShri t f => Sys2Proof.Machine.execIShri t f s
  | .iSari t f => Sys2Proof.Machine.execISari t f s
  | .iOrsh t f => Sys2Proof.Machine.execIOrsh t f s
  | .iCeqi t f => Sys2Proof.Machine.execICeqi t f s
  | .iCltui t f => Sys2Proof.Machine.execICltui t f s
  | .iBext t f => Sys2Proof.Machine.execIBext t f s
  | .iBins t f => Sys2Proof.Machine.execIBins t f s
  | .iKputg t f => Sys2Proof.Machine.execIKputg t f s
  | .iKseek t f => Sys2Proof.Machine.execIKseek t f s
  | .iLdl t f => Sys2Proof.Machine.execILdl t f s
  | .iStl t f => Sys2Proof.Machine.execIStl t f s
  | .iRdsys t f => Sys2Proof.Machine.execIRdsys t f s
  | .iFins t f => Sys2Proof.Machine.execIFins t f s
  | .iFdel t f => Sys2Proof.Machine.execIFdel t f s
  | .iMirr t f => Sys2Proof.Machine.execIMirr t f s
  | .iFwd t f => Sys2Proof.Machine.execIFwd t f s
  | .iDrop t f => Sys2Proof.Machine.execIDrop t f s
  | .iLdn t f => Sys2Proof.Machine.execILdn t f s
  | .iStn t f => Sys2Proof.Machine.execIStn t f s
  | .iKputn t f => Sys2Proof.Machine.execIKputn t f s
  | .iLdt t f => Sys2Proof.Machine.execILdt t f s
  | .iStt t f => Sys2Proof.Machine.execIStt t f s
  | .iLkup t f => Sys2Proof.Machine.execILkup t f s
  | .iAsrch t f => Sys2Proof.Machine.execIAsrch t f s
  | .iPmat t f => Sys2Proof.Machine.execIPmat t f s
  | .iMtr t f => Sys2Proof.Machine.execIMtr t f s
  | .iCnta t f => Sys2Proof.Machine.execICnta t f s
  | .iLearn t f => Sys2Proof.Machine.execILearn t f s
  | .iSend t f => Sys2Proof.Machine.execISend t f s
  | .iRecv t f => Sys2Proof.Machine.execIRecv t f s
  | .iRecvp t f => Sys2Proof.Machine.execIRecvp t f s
  | .iBr t f => Sys2Proof.Machine.execIBr t f s
  | .iBp t f => Sys2Proof.Machine.execIBp t f s
  | .iCall t f => Sys2Proof.Machine.execICall t f s
  | .iWevt t f => Sys2Proof.Machine.execIWevt t f s
  | .iSevt t f => Sys2Proof.Machine.execISevt t f s
  | .iTstart t f => Sys2Proof.Machine.execITstart t f s
  | .iRaise t f => Sys2Proof.Machine.execIRaise t f s
  | .iXrd t f => Sys2Proof.Machine.execIXrd t f s
  | .iXwr t f => Sys2Proof.Machine.execIXwr t f s
  | .eventLineAssert die core thread line => Sys2Proof.Machine.execEventLineAssert die core thread line s
  | .lkupReply req => Sys2Proof.Machine.execLkupReply req s
  | .asrchReply req => Sys2Proof.Machine.execAsrchReply req s
  | .pmatReply req => Sys2Proof.Machine.execPmatReply req s
  | .mtrReply req => Sys2Proof.Machine.execMtrReply req s
  | .xrdReply req => Sys2Proof.Machine.execXrdReply req s
  | .watchdogExpiry t => Sys2Proof.Machine.execWatchdogExpiry t s
  | .faultHandlerStart slice => Sys2Proof.Machine.execFaultHandlerStart slice s
  | .reorderRelease side obj => Sys2Proof.Machine.execReorderRelease side obj s
  | .assocBankUpdate bank delayed => Sys2Proof.Machine.execAssocBankUpdate bank delayed s
  | .learnEngineEvent => Sys2Proof.Machine.execLearnEngineEvent s
  | .ageTick => Sys2Proof.Machine.execAgeTick s
  | .sweepVisit home slot overrun => Sys2Proof.Machine.execSweepVisit home slot overrun s
  | .ageCompareDelete => Sys2Proof.Machine.execAgeCompareDelete s
  | .routeChange => Sys2Proof.Machine.execRouteChange s
  | .vrfMapWrite agent family vrf value => Sys2Proof.Machine.execVrfMapWrite agent family vrf value s
  | .bufferRequest reqs => Sys2Proof.Machine.execBufferRequest reqs s
  | .bufferReturn handle => Sys2Proof.Machine.execBufferReturn handle s
  | .poolGeometryWrite agent pool value => Sys2Proof.Machine.execPoolGeometryWrite agent pool value s
  | .ownerReserveWrite agent owner word value => Sys2Proof.Machine.execOwnerReserveWrite agent owner word value s
  | .frameAgeSweep queue => Sys2Proof.Machine.execFrameAgeSweep queue s
  | .assayPassEnd lines => Sys2Proof.Machine.execAssayPassEnd lines s
  | .assayVisit handle => Sys2Proof.Machine.execAssayVisit handle s
  | .vartonIngress src => Sys2Proof.Machine.execVartonIngress src s
  | .queueEpochEnd => Sys2Proof.Machine.execQueueEpochEnd s
  | .meterRead agent window index => Sys2Proof.Machine.execMeterRead agent window index s
  | .meterWrite agent window index => Sys2Proof.Machine.execMeterWrite agent window index s
  | .meterWriteFill agent window index => Sys2Proof.Machine.execMeterWriteFill agent window index s
  | .schedulerDecision target => Sys2Proof.Machine.execSchedulerDecision target s
  | .wheelRelease => Sys2Proof.Machine.execWheelRelease s
  | .shaperWrite agent entry value => Sys2Proof.Machine.execShaperWrite agent entry value s
  | .schedElementWrite agent elem value => Sys2Proof.Machine.execSchedElementWrite agent elem value s
  | .destinationPowerDown d => Sys2Proof.Machine.execDestinationPowerDown d s
  | .drainEnd d => Sys2Proof.Machine.execDrainEnd d s
  | .destinationPowerUp d => Sys2Proof.Machine.execDestinationPowerUp d s
  | .cellReceive lane header payload => Sys2Proof.Machine.execCellReceive lane header payload s
  | .reorderWindowExpiry src express => Sys2Proof.Machine.execReorderWindowExpiry src express s
  | .helloTimer lane => Sys2Proof.Machine.execHelloTimer lane s
  | .hello lane msg => Sys2Proof.Machine.execHello lane msg s
  | .laneDown lane => Sys2Proof.Machine.execLaneDown lane s
  | .xoff dest => Sys2Proof.Machine.execXoff dest s
  | .xon dest => Sys2Proof.Machine.execXon dest s
  | .request src dest cells => Sys2Proof.Machine.execRequest src dest cells s
  | .grantArbitration d => Sys2Proof.Machine.execGrantArbitration d s
  | .grant dest token => Sys2Proof.Machine.execGrant dest token s
  | .cancel src dest token => Sys2Proof.Machine.execCancel src dest token s
  | .grantExpiry d token => Sys2Proof.Machine.execGrantExpiry d token s
  | .retryVisit => Sys2Proof.Machine.execRetryVisit s
  | .heartbeat => Sys2Proof.Machine.execHeartbeat s
  | .twinLinkUp peer => Sys2Proof.Machine.execTwinLinkUp peer s
  | .twinEnable agent value => Sys2Proof.Machine.execTwinEnable agent value s
  | .formTimeout => Sys2Proof.Machine.execFormTimeout s
  | .leadLoss => Sys2Proof.Machine.execLeadLoss s
  | .take agent => Sys2Proof.Machine.execTake agent s
  | .yield agent => Sys2Proof.Machine.execYield agent s
  | .anneal agent => Sys2Proof.Machine.execAnneal agent s
  | .suspectClear byTwin => Sys2Proof.Machine.execSuspectClear byTwin s
  | .changeRecord rec => Sys2Proof.Machine.execChangeRecord rec s
  | .refreshRecord table key => Sys2Proof.Machine.execRefreshRecord table key s
  | .strictMeterSync buckets => Sys2Proof.Machine.execStrictMeterSync buckets s
  | .digestRecord stream rseq digest => Sys2Proof.Machine.execDigestRecord stream rseq digest s
  | .compareTimeout own stream rseq => Sys2Proof.Machine.execCompareTimeout own stream rseq s
  | .annealMatch epoch generation digest => Sys2Proof.Machine.execAnnealMatch epoch generation digest s
  | .annealCopyComplete => Sys2Proof.Machine.execAnnealCopyComplete s
  | .paired => Sys2Proof.Machine.execPaired s
  | .holdExpiry stream => Sys2Proof.Machine.execHoldExpiry stream s
  | .recoveryReset stream => Sys2Proof.Machine.execRecoveryReset stream s
  | .streamRead agent index => Sys2Proof.Machine.execStreamRead agent index s
  | .streamWrite agent index => Sys2Proof.Machine.execStreamWrite agent index s
  | .streamReset agent index => Sys2Proof.Machine.execStreamReset agent index s
  | .selftestFailure unit kind => Sys2Proof.Machine.execSelftestFailure unit kind s
  | .frescoRecord => Sys2Proof.Machine.execFrescoRecord s
  | .sealTimeout => Sys2Proof.Machine.execSealTimeout s
  | .frescoFlush agent => Sys2Proof.Machine.execFrescoFlush agent s
  | .newRing agent => Sys2Proof.Machine.execNewRing agent s
  | .nvmeCompletion target seq part ok => Sys2Proof.Machine.execNvmeCompletion target seq part ok s
  | .nvmeTimeout target seq part => Sys2Proof.Machine.execNvmeTimeout target seq part s
  | .nvmeRemoval root => Sys2Proof.Machine.execNvmeRemoval root s
  | .roceAck target psn answer => Sys2Proof.Machine.execRoceAck target psn answer s
  | .roceAckTimeout target => Sys2Proof.Machine.execRoceAckTimeout target s
  | .wearPoll target percentageUsed => Sys2Proof.Machine.execWearPoll target percentageUsed s
  | .targetEnable agent target value => Sys2Proof.Machine.execTargetEnable agent target value s
  | .sealFresco => Sys2Proof.Machine.execSealFresco s
  | .holdupEnd => Sys2Proof.Machine.execHoldupEnd s
  | .sealRelease => Sys2Proof.Machine.execSealRelease s
  | .segmentRead agent bad => Sys2Proof.Machine.execSegmentRead agent bad s
  | .verify agent badTargets => Sys2Proof.Machine.execVerify agent badTargets s
  | .directoryRebuild => Sys2Proof.Machine.execDirectoryRebuild s
  | .channelStart agent c => Sys2Proof.Machine.execChannelStart agent c s
  | .channelReset agent c => Sys2Proof.Machine.execChannelReset agent c s
  | .channelKill agent c => Sys2Proof.Machine.execChannelKill agent c s
  | .doorbellRing fn c => Sys2Proof.Machine.execDoorbellRing fn c s
  | .doorbellStart fn c => Sys2Proof.Machine.execDoorbellStart fn c s
  | .doorbellKill fn c => Sys2Proof.Machine.execDoorbellKill fn c s
  | .twMove c hostError => Sys2Proof.Machine.execTwMove c hostError s
  | .moveComplete c index hostError => Sys2Proof.Machine.execMoveComplete c index hostError s
  | .twLoop c hostError => Sys2Proof.Machine.execTwLoop c hostError s
  | .twWait c hostError => Sys2Proof.Machine.execTwWait c hostError s
  | .twSignal c hostError => Sys2Proof.Machine.execTwSignal c hostError s
  | .twLink c hostError => Sys2Proof.Machine.execTwLink c hostError s
  | .twEnd c hostError => Sys2Proof.Machine.execTwEnd c hostError s
  | .timerTick timer => Sys2Proof.Machine.execTimerTick timer s
  | .timerWrite agent timer value => Sys2Proof.Machine.execTimerWrite agent timer value s
  | .hbmRequest stack done reqs => Sys2Proof.Machine.execHbmRequest stack done reqs s
  | .refresh stack bank => Sys2Proof.Machine.execRefresh stack bank s
  | .idleSelfRefresh stack => Sys2Proof.Machine.execIdleSelfRefresh stack s
  | .patrolScrub stack offset ecc => Sys2Proof.Machine.execPatrolScrub stack offset ecc s
  | .trainingStart => Sys2Proof.Machine.execTrainingStart s
  | .fastTraining stack identity tcase errors => Sys2Proof.Machine.execFastTraining stack identity tcase errors s
  | .fullTraining stack run => Sys2Proof.Machine.execFullTraining stack run s
  | .strobeTracking stack pc later => Sys2Proof.Machine.execStrobeTracking stack pc later s
  | .postPackageRepair stack bank row => Sys2Proof.Machine.execPostPackageRepair stack bank row s
  | .retireGo agent stack channel yieldTo => Sys2Proof.Machine.execRetireGo agent stack channel yieldTo s
  | .migrationComplete stack granules => Sys2Proof.Machine.execMigrationComplete stack granules s
  | .frameReceive source data => Sys2Proof.Machine.execFrameReceive source data s
  | .frameTransmit dest warnLine => Sys2Proof.Machine.execFrameTransmit dest warnLine s
  | .laneLock lane => Sys2Proof.Machine.execLaneLock lane s
  | .adaptationComplete lane aligned => Sys2Proof.Machine.execAdaptationComplete lane aligned s
  | .adaptationCycle lane moves => Sys2Proof.Machine.execAdaptationCycle lane moves s
  | .linkChange port report => Sys2Proof.Machine.execLinkChange port report s
  | .calendarSwitch agent group => Sys2Proof.Machine.execCalendarSwitch agent group s
  | .calendarSwitchDone group => Sys2Proof.Machine.execCalendarSwitchDone group s
  | .saRead agent index => Sys2Proof.Machine.execSaRead agent index s
  | .saWrite agent index => Sys2Proof.Machine.execSaWrite agent index s
  | .timeSet agent => Sys2Proof.Machine.execTimeSet agent s
  | .timeStep agent => Sys2Proof.Machine.execTimeStep agent s
  | .ppsEdge slew => Sys2Proof.Machine.execPpsEdge slew s
  | .ppsOutEdge => Sys2Proof.Machine.execPpsOutEdge s
  | .tsFifoRead agent port => Sys2Proof.Machine.execTsFifoRead agent port s
  | .retire agent unit nosub => Sys2Proof.Machine.execRetire agent unit nosub s
  | .reinstate agent unit => Sys2Proof.Machine.execReinstate agent unit s
  | .abort agent unit => Sys2Proof.Machine.execAbort agent unit s
  | .sliceDrainEnd slice => Sys2Proof.Machine.execSliceDrainEnd slice s
  | .bankSpareLoaded bank => Sys2Proof.Machine.execBankSpareLoaded bank s
  | .laneRetireWindowEnd lane => Sys2Proof.Machine.execLaneRetireWindowEnd lane s
  | .stageComplete unit ok => Sys2Proof.Machine.execStageComplete unit ok s
  | .shadowCompare unit copy => Sys2Proof.Machine.execShadowCompare unit copy s
  | .columnRepair die array column => Sys2Proof.Machine.execColumnRepair die array column s
  | .phaseCheck rail currents faults => Sys2Proof.Machine.execPhaseCheck rail currents faults s
  | .lifeRecordHourly => Sys2Proof.Machine.execLifeRecordHourly s
  | .vinValid => Sys2Proof.Machine.execVinValid s
  | .vinLoss => Sys2Proof.Machine.execVinLoss s
  | .vinLow low => Sys2Proof.Machine.execVinLow low s
  | .vinSurge above => Sys2Proof.Machine.execVinSurge above s
  | .vinOvervoltage => Sys2Proof.Machine.execVinOvervoltage s
  | .vauxValid => Sys2Proof.Machine.execVauxValid s
  | .vauxLoss => Sys2Proof.Machine.execVauxLoss s
  | .lockstepReset => Sys2Proof.Machine.execLockstepReset s
  | .railInRegulation rail => Sys2Proof.Machine.execRailInRegulation rail s
  | .railTimeout rail => Sys2Proof.Machine.execRailTimeout rail s
  | .adcSample channel value => Sys2Proof.Machine.execAdcSample channel value s
  | .stackThrottleStep stack => Sys2Proof.Machine.execStackThrottleStep stack s
  | .ruleWrite agent rule word value => Sys2Proof.Machine.execRuleWrite agent rule word value s
  | .channelSourceWrite agent channel value => Sys2Proof.Machine.execChannelSourceWrite agent channel value s
  | .powerTransition => Sys2Proof.Machine.execPowerTransition s
  | .slicePowerDown slice => Sys2Proof.Machine.execSlicePowerDown slice s
  | .slicePowerDownTimeout slice => Sys2Proof.Machine.execSlicePowerDownTimeout slice s
  | .slicePowerUp slice bistOk => Sys2Proof.Machine.execSlicePowerUp slice bistOk s
  | .holdoverEntryDrainEnd => Sys2Proof.Machine.execHoldoverEntryDrainEnd s
  | .holdoverReturn => Sys2Proof.Machine.execHoldoverReturn s
  | .dormantEntry => Sys2Proof.Machine.execDormantEntry s
  | .dormantToHoldover flash0 flash1 => Sys2Proof.Machine.execDormantToHoldover flash0 flash1 s
  | .standingCoatLoaded => Sys2Proof.Machine.execStandingCoatLoaded s
  | .perstAssert => Sys2Proof.Machine.execPerstAssert s
  | .perstDeassert => Sys2Proof.Machine.execPerstDeassert s
  | .endpointReady => Sys2Proof.Machine.execEndpointReady s
  | .wakeRequest rule link resuming => Sys2Proof.Machine.execWakeRequest rule link resuming s
  | .linkL0 => Sys2Proof.Machine.execLinkL0 s
  | .hostResume => Sys2Proof.Machine.execHostResume s
  | .lathStart straps => Sys2Proof.Machine.execLathStart straps s
  | .dieResetExit => Sys2Proof.Machine.execDieResetExit s
  | .refclkStable => Sys2Proof.Machine.execRefclkStable s
  | .coatLoad flash0 flash1 => Sys2Proof.Machine.execCoatLoad flash0 flash1 s
  | .coatActive => Sys2Proof.Machine.execCoatActive s
  | .smbusBlockWrite address offset width value pecOk => Sys2Proof.Machine.execSmbusBlockWrite address offset width value pecOk s
  | .smbusSetOffset address offset pecOk => Sys2Proof.Machine.execSmbusSetOffset address offset pecOk s
  | .smbusBlockRead address => Sys2Proof.Machine.execSmbusBlockRead address s
  | .pcFilterWrite fn word value => Sys2Proof.Machine.execPcFilterWrite fn word value s
  | .healthReport => Sys2Proof.Machine.execHealthReport s
  | .twinReportReceive report => Sys2Proof.Machine.execTwinReportReceive report s
  | .busMasterEnableClear fn => Sys2Proof.Machine.execBusMasterEnableClear fn s
  | .heartbeatReceived epoch suspect => Sys2Proof.Machine.execHeartbeatReceived epoch suspect s
  | .twinLearnEvent ev => Sys2Proof.Machine.execTwinLearnEvent ev s
  | .annealTransfer item => Sys2Proof.Machine.execAnnealTransfer item s
  | .twinRecoatDigest digest => Sys2Proof.Machine.execTwinRecoatDigest digest s
  | .coatMismatchTimeout => Sys2Proof.Machine.execCoatMismatchTimeout s
  | .clockLockLoss lane => Sys2Proof.Machine.execClockLockLoss lane s
  | .xtalFail => Sys2Proof.Machine.execXtalFail s
  | .sramScrub die array column ecc => Sys2Proof.Machine.execSramScrub die array column ecc s

end Sys2Proof.Machine
end

