-- ==== Sys2Proof/Machine/Transmit.lean ====
section
/-! DEFINITION. The transmitters of the lanes: what waits for a lane leaves in the order of R337, R348 and R368. The step
with no command waiting lets every lane send one cell or message (DESIGN CHOICE, log entry 3). -/

namespace Sys2Proof.Machine

/-! ### One lane -/

/-- A CONTROL cell with the messages for one module (R337). -/
def controlCell (s : State) (m : Nat) (msgs : List Word) : Cell :=
  let bs := msgs.flatMap (fun w => leBytes 8 w.toNat)
  ⟨mkHeader 5 0 0 (m * 1024) (myId s) 0 0 bs.length, slice bs 0 256⟩

/-- A cell leaves on a lane (event 1,229). -/
def cellLeaves (s : State) (k : Nat) (c : Cell) : State :=
  (s.count 1229 (some k) 1 { tc := some (Hd.tc c.hdr) }).emit (.cell k c)

/-- The control messages for the module that the oldest one addresses leave in one CONTROL cell, at most 32 of them. -/
def controlLeaves (s : State) (k : Nat) (t : LaneTx) (m : Nat) : State :=
  let mine := (t.control.filter (fun x => x.1 == m)).take 32
  let left := (t.control.filter (fun x => x.1 == m)).drop 32 ++ t.control.filter (fun x => x.1 != m)
  cellLeaves (s.setLaneTx k { t with control := left }) k (controlCell s m (mine.map (·.2)))

/-- The next cell of a lane, and what then waits: relayed control, express, relayed, bulk (R337, R348). -/
def LaneTx.next (t : LaneTx) : Option (Cell × LaneTx) :=
  match t.relayedCtl, t.express, t.relayed, t.bulk with
  | c :: cs, _, _, _ => some (c, { t with relayedCtl := cs })
  | [], c :: cs, _, _ => some (c, { t with express := cs })
  | [], [], c :: cs, _ => some (c, { t with relayed := cs })
  | [], [], [], c :: cs => some (c, { t with bulk := cs })
  | [], [], [], [] => none

/-- A message may leave on lane `k`: a heartbeat has its own lane. -/
def TwinMsg.fitsLane (m : TwinMsg) (k : Nat) : Bool :=
  match m with
  | .heartbeat j _ _ => j == k
  | _ => true

/-- The next message to the twin on lane `k`, of ranks `lo` to `hi`, the lowest rank first (R368). -/
def nextTwin (s : State) (k lo hi : Nat) : Option (TwinMsg × List TwinMsg) :=
  (List.range 7).findSome? (fun r =>
    if lo ≤ r ∧ r ≤ hi then
      (splitAtFirst (fun (m : TwinMsg) => m.rank == r && m.fitsLane k) s.tn.tx).map (fun x => (x.2.1, x.1 ++ x.2.2))
    else none)

/-- A message leaves on lane `k`; an item of the anneal copy is the last of it so far. -/
def twinLeaves (s : State) (k : Nat) (m : TwinMsg) (left : List TwinMsg) : State :=
  State.emit { s with tn := { s.tn with
    tx := left
    copied := if m.rank = 5 then s.clk.ns else s.tn.copied } } (.twin k m)

/-- Lane `k` sends what is next: control cells; on a twin lane the kinds 1 to 3 of R368's table; cells; the other kinds. A
lane that trains sends HELLO alone. -/
def transmitLane (s : State) (k : Nat) : State :=
  let t := laneTx s k
  match t.control with
  | (m, _) :: _ => if laneUp s k || laneState s k == 1 then controlLeaves s k t m else s
  | [] =>
    if !laneUp s k then s
    else
      match (if twinLane s k then nextTwin s k 1 3 else none) with
      | some (m, left) => twinLeaves s k m left
      | none =>
        match t.next with
        | some (c, t') => cellLeaves (s.setLaneTx k t') k c
        | none =>
          match (if twinLane s k then nextTwin s k 5 6 else none) with
          | some (m, left) => twinLeaves s k m left
          | none => s

/-- Every lane for which something waits sends one cell or message. -/
def transmit (s : State) : State :=
  let lanes := if s.tn.tx.isEmpty then s.fb.tx.map (·.1) else List.range 48
  lanes.foldl transmitLane s

end Sys2Proof.Machine
end

