-- ==== Sys2Proof/WellFormed.lean ====
section
/-! DEFINITION. Well-formed commands: every operand lies in the range that the manual gives what it names. -/

namespace Sys2Proof

/-! ### The checks -/

/-- A function (R30). -/
def fnOk (n : Nat) : Bool := decide (n < 64)

/-- A function's command ring (R56). -/
def ringOk (fn k : Nat) : Bool := fnOk fn && decide (k < 16)

/-- A slice (R68). -/
def sliceOk (n : Nat) : Bool := decide (n < 17)

/-- An ingress source, or a port or FlexE client as a destination (R19, R22). -/
def sourceOk (n : Nat) : Bool := decide (n < 160)

/-- A source or destination of the dispatchers (R76). -/
def objOk (n : Nat) : Bool := decide (n < 160)

/-- A local destination (R22). -/
def destOk (n : Nat) : Bool := decide (n < 1024)

/-- A module (R339). -/
def moduleOk (n : Nat) : Bool := decide (n < 64)

/-- A fabric lane (R333). -/
def laneOk (n : Nat) : Bool := decide (n < 48)

/-- A line lane or a MAC port (R466). -/
def lineOk (n : Nat) : Bool := decide (n < 32)

/-- A FlexE group (R469). -/
def groupOk (n : Nat) : Bool := decide (n < 8)

/-- A secure association (R477). -/
def saOk (n : Nat) : Bool := decide (n < 1152)

/-- A capture target (R411). -/
def targetOk (n : Nat) : Bool := decide (n < 72)

/-- A Trowel channel (R425). -/
def channelOk (n : Nat) : Bool := decide (n < 128)

/-- A stack (R447). -/
def stackOk (n : Nat) : Bool := decide (n < 3)

/-- A bank of a stack: channel, pseudo-channel, SID, bank group and bank (R448). -/
def bankOk (n : Nat) : Bool := decide (n < 2048)

/-- A rail (R525). -/
def railOk (n : Nat) : Bool := decide (n < 9)

/-- A unit of SY_SVC_CMD (R492). -/
def unitOk (u : Nat) : Bool := decide (u ≤ 16 ∨ (32 ≤ u ∧ u ≤ 65) ∨ (96 ≤ u ∧ u ≤ 143))

/-- A meter window and the meter that it names (R310). -/
def windowOk (w i : Nat) : Bool := decide (w < 2 ∧ i < 1048576)

/-- Slots of a home (R226). -/
def homeSlots (home : Nat) : Nat := if home = 0 then 2097152 else 33554432

/-- A key of at most 64 nibbles (R223). -/
def keyOk (k : List (BitVec 4)) : Bool := decide (k.length ≤ 64)

/-- An access to BAR0, naturally aligned (R31, R36). -/
def barOk (o : Nat) (w : Width) : Bool := decide (o + w.bytes ≤ 2 ^ 26) && decide (o % w.bytes = 0)

/-- An access to BAR2, naturally aligned (R31). -/
def bar2Ok (o : Nat) (w : Width) : Bool := decide (o + w.bytes ≤ 2 ^ 30) && decide (o % w.bytes = 0)

def Agent.wf : Agent → Bool
  | .fn n => fnOk n
  | .steward c => decide (c < 8)
  | .smbus => true
  | .startWrite => true

def Tid.wf : Tid → Bool
  | .packet s c t => sliceOk s && decide (c < 24 ∧ t < 8)
  | .steward d c t => decide (d < 2 ∧ c < 4 ∧ t < 16)

/-- A core of a slice or of a die (R81, R88). -/
def CoreRef.wf : CoreRef → Bool
  | .packet s c => sliceOk s && decide (c < 24)
  | .steward d c => decide (d < 2 ∧ c < 4)

/-- Threads of a core (R81, R88). -/
def CoreRef.threads : CoreRef → Nat
  | .packet _ _ => 8
  | .steward _ _ => 16

/-- A binding names a channel of a core, and a thread of the same core (R92). -/
def BindDecl.wf (b : BindDecl) : Bool :=
  b.core.wf && decide (b.ch < 16) &&
  (match b.bindTo with
    | .thread t => decide (t < b.core.threads)
    | _ => true)

def RegWrite.wf : RegWrite → Bool
  | .csr a o w _ => a.wf && barOk o w
  | .numVfs n => fnOk n
  | .msixControl fn _ _ => fnOk fn

/-- An access to the 256 MiB window of BAR4, naturally aligned (R31). -/
def bar4Ok (o : Nat) (w : Width) : Bool := decide (o + w.bytes ≤ 2 ^ 28) && decide (o % w.bytes = 0)

def RegRead.wf : RegRead → Bool
  | .csr a o w => a.wf && barOk o w
  | .bar2 o w => bar2Ok o w
  | .bar4 o w => bar4Ok o w

def BufReq.wf (r : BufReq) : Bool := decide (r.port < 25 ∧ r.owner < 4096 ∧ r.realm < 64 ∧ r.tc < 8)

def QueueId.wf : QueueId → Bool
  | .voq q => decide (q < 524288)
  | .eq e => decide (e < 32768)

def IngressFrom.wf : IngressFrom → Bool
  | .dieLink p => decide (p < 25)
  | .steward _ _ => true

def SchedAt.wf : SchedAt → Bool
  | .voq => true
  | .port d => destOk d

def SchedElem.wf : SchedElem → Bool
  | .port d => decide (d < 256)
  | .node n => decide (n < 16384)
  | .eq e => decide (e < 32768)
  | .voq q => decide (q < 524288)

def TwinPeer.wf (p : TwinPeer) : Bool := moduleOk p.id && decide (p.epoch < 2 ^ 32)

def ChangeRec.wf (r : ChangeRec) : Bool := decide (r.table < 4096 ∧ r.ts < 65536) && keyOk r.key

def LearnEv.wf (e : LearnEv) : Bool := decide (e.table < 4096 ∧ e.realm < 64) && keyOk e.key

def AnnealItem.wf : AnnealItem → Bool
  | .entry r => r.wf
  | .stream _ i n q _ _ => decide (i < 65536 ∧ n < 65536 ∧ q < 65536)
  | .bucket m _ => decide (m < 8192)

/-! ### Commands -/

/-- A command is well formed. -/
def Instr.wf (i : Instr) : Bool :=
  match i with
  | .registerWrite w => w.wf
  | .rcRead r => r.wf
  | .realmDisable agent realm => agent.wf && decide (realm < 64)
  | .ringEnable fn k _ => ringOk fn k
  | .puntRingEnable fn _ => fnOk fn
  | .busMasterEnableSet fn => fnOk fn
  | .nop fn k => ringOk fn k
  | .csrRead fn k => ringOk fn k
  | .csrWrite fn k => ringOk fn k
  | .imageStage fn k binds => ringOk fn k && binds.all BindDecl.wf
  | .counterSnapshot fn k => ringOk fn k
  | .recoat fn k => ringOk fn k
  | .recoatFlip => true
  | .recoatDrainEnd => true
  | .signalEvent fn k => ringOk fn k
  | .tableOpRead fn k => ringOk fn k
  | .tableInsert fn k => ringOk fn k
  | .tableDelete fn k => ringOk fn k
  | .tableFlush fn k => ringOk fn k
  | .realign fn k => ringOk fn k
  | .assocWrite fn k => ringOk fn k
  | .assocRead fn k => ringOk fn k
  | .ringCoalTimeout fn k => ringOk fn k
  | .puntDelivery realm => fnOk realm
  | .hallmarkPinWrite agent pin => agent.wf && decide (pin < 16)
  | .bar2Write fn offset width _ => fnOk fn && bar2Ok offset width
  | .ingressAdmission source => sourceOk source
  | .admissionEpochEnd => true
  | .dispatch _ obj => objOk obj
  | .parseWalk slice => sliceOk slice
  | .threadTakePacket slice => sliceOk slice
  | .iAdd t _ => t.wf
  | .iSub t _ => t.wf
  | .iAnd t _ => t.wf
  | .iOr t _ => t.wf
  | .iXor t _ => t.wf
  | .iAndn t _ => t.wf
  | .iShl t _ => t.wf
  | .iShr t _ => t.wf
  | .iSar t _ => t.wf
  | .iMul t _ => t.wf
  | .iSel t _ => t.wf
  | .iClz t _ => t.wf
  | .iBswap t _ => t.wf
  | .iHash t _ => t.wf
  | .iCsum t _ => t.wf
  | .iCeq t _ => t.wf
  | .iCne t _ => t.wf
  | .iCltu t _ => t.wf
  | .iClt t _ => t.wf
  | .iPlog t _ => t.wf
  | .iPtog t _ => t.wf
  | .iGtop t _ => t.wf
  | .iLdnv t _ => t.wf
  | .iStnv t _ => t.wf
  | .iJr t _ => t.wf
  | .iCst t _ => t.wf
  | .iAddi t _ => t.wf
  | .iAndi t _ => t.wf
  | .iOri t _ => t.wf
  | .iXori t _ => t.wf
  | .iShli t _ => t.wf
  | .iShri t _ => t.wf
  | .iSari t _ => t.wf
  | .iOrsh t _ => t.wf
  | .iCeqi t _ => t.wf
  | .iCltui t _ => t.wf
  | .iBext t _ => t.wf
  | .iBins t _ => t.wf
  | .iKputg t _ => t.wf
  | .iKseek t _ => t.wf
  | .iLdl t _ => t.wf
  | .iStl t _ => t.wf
  | .iRdsys t _ => t.wf
  | .iFins t _ => t.wf
  | .iFdel t _ => t.wf
  | .iMirr t _ => t.wf
  | .iFwd t _ => t.wf
  | .iDrop t _ => t.wf
  | .iLdn t _ => t.wf
  | .iStn t _ => t.wf
  | .iKputn t _ => t.wf
  | .iLdt t _ => t.wf
  | .iStt t _ => t.wf
  | .iLkup t _ => t.wf
  | .iAsrch t _ => t.wf
  | .iPmat t _ => t.wf
  | .iMtr t _ => t.wf
  | .iCnta t _ => t.wf
  | .iLearn t _ => t.wf
  | .iSend t _ => t.wf
  | .iRecv t _ => t.wf
  | .iRecvp t _ => t.wf
  | .iBr t _ => t.wf
  | .iBp t _ => t.wf
  | .iCall t _ => t.wf
  | .iWevt t _ => t.wf
  | .iSevt t _ => t.wf
  | .iTstart t _ => t.wf
  | .iRaise t _ => t.wf
  | .iXrd t _ => t.wf
  | .iXwr t _ => t.wf
  | .eventLineAssert die core thread line => decide (die < 2 ∧ core < 4 ∧ thread < 16 ∧ line < 64)
  | .lkupReply _ => true
  | .asrchReply _ => true
  | .pmatReply _ => true
  | .mtrReply _ => true
  | .xrdReply _ => true
  | .watchdogExpiry t => t.wf
  | .faultHandlerStart slice => sliceOk slice
  | .reorderRelease _ obj => objOk obj
  | .assocBankUpdate bank _ => decide (bank < 32)
  | .learnEngineEvent => true
  | .ageTick => true
  | .sweepVisit home slot _ => decide (home < 2) && decide (slot < homeSlots home)
  | .ageCompareDelete => true
  | .routeChange => true
  | .vrfMapWrite agent family vrf _ => agent.wf && decide (family < 2 ∧ vrf < 4096)
  | .bufferRequest reqs => reqs.all BufReq.wf
  | .bufferReturn handle => decide (handle < 2 ^ 33)
  | .poolGeometryWrite agent pool _ => agent.wf && decide (pool < 64)
  | .ownerReserveWrite agent owner word _ => agent.wf && decide (owner < 4096 ∧ word < 2)
  | .frameAgeSweep queue => queue.wf
  | .assayPassEnd _ => true
  | .assayVisit handle => decide (handle < 2 ^ 33)
  | .vartonIngress src => src.wf
  | .queueEpochEnd => true
  | .meterRead agent window index => agent.wf && windowOk window index
  | .meterWrite agent window index => agent.wf && windowOk window index
  | .meterWriteFill agent window index => agent.wf && windowOk window index
  | .schedulerDecision target => target.wf
  | .wheelRelease => true
  | .shaperWrite agent entry _ => agent.wf && decide (entry < 262144)
  | .schedElementWrite agent elem _ => agent.wf && elem.wf
  | .destinationPowerDown d => destOk d
  | .drainEnd d => destOk d
  | .destinationPowerUp d => destOk d
  | .cellReceive lane _ payload => decide (lane < 49) && decide (payload.length ≤ 256)
  | .reorderWindowExpiry src _ => moduleOk src
  | .helloTimer lane => laneOk lane
  | .hello lane _ => laneOk lane
  | .laneDown lane => laneOk lane
  | .xoff dest => decide (dest < 65536)
  | .xon dest => decide (dest < 65536)
  | .request src dest _ => moduleOk src && decide (dest < 65536)
  | .grantArbitration d => destOk d
  | .grant dest _ => decide (dest < 65536)
  | .cancel src dest _ => moduleOk src && decide (dest < 65536)
  | .grantExpiry d _ => destOk d
  | .retryVisit => true
  | .heartbeat => true
  | .twinLinkUp peer => peer.wf
  | .twinEnable agent _ => agent.wf
  | .formTimeout => true
  | .leadLoss => true
  | .take agent => agent.wf
  | .yield agent => agent.wf
  | .anneal agent => agent.wf
  | .suspectClear _ => true
  | .changeRecord rec => rec.wf
  | .refreshRecord table key => decide (table < 4096) && keyOk key
  | .strictMeterSync buckets => buckets.all (fun b => decide (b.1 < 8192))
  | .digestRecord stream rseq _ => decide (stream < 65536 ∧ rseq < 65536)
  | .compareTimeout _ stream rseq => decide (stream < 65536 ∧ rseq < 65536)
  | .annealMatch epoch generation _ => decide (epoch < 2 ^ 32 ∧ generation < 2 ^ 32)
  | .annealCopyComplete => true
  | .paired => true
  | .holdExpiry stream => decide (stream < 65536)
  | .recoveryReset stream => decide (stream < 65536)
  | .streamRead agent index => agent.wf && decide (index < 65536)
  | .streamWrite agent index => agent.wf && decide (index < 65536)
  | .streamReset agent index => agent.wf && decide (index < 65536)
  | .selftestFailure unit _ => unitOk unit
  | .frescoRecord => true
  | .sealTimeout => true
  | .frescoFlush agent => agent.wf
  | .newRing agent => agent.wf
  | .nvmeCompletion target _ _ _ => targetOk target
  | .nvmeTimeout target _ _ => targetOk target
  | .nvmeRemoval root => decide (root < 8)
  | .roceAck target psn _ => targetOk target && decide (psn < 2 ^ 24)
  | .roceAckTimeout target => targetOk target
  | .wearPoll target _ => targetOk target
  | .targetEnable agent target _ => agent.wf && targetOk target
  | .sealFresco => true
  | .holdupEnd => true
  | .sealRelease => true
  | .segmentRead agent bad => agent.wf && bad.all targetOk
  | .verify agent badTargets => agent.wf && badTargets.all targetOk
  | .directoryRebuild => true
  | .channelStart agent c => agent.wf && channelOk c
  | .channelReset agent c => agent.wf && channelOk c
  | .channelKill agent c => agent.wf && channelOk c
  | .doorbellRing fn c => fnOk fn && channelOk c
  | .doorbellStart fn c => fnOk fn && channelOk c
  | .doorbellKill fn c => fnOk fn && channelOk c
  | .twMove c _ => channelOk c
  | .moveComplete c index _ => channelOk c && decide (index < 16)
  | .twLoop c _ => channelOk c
  | .twWait c _ => channelOk c
  | .twSignal c _ => channelOk c
  | .twLink c _ => channelOk c
  | .twEnd c _ => channelOk c
  | .timerTick timer => decide (timer < 16)
  | .timerWrite agent timer _ => agent.wf && decide (timer < 16)
  | .hbmRequest stack done reqs =>
    stackOk stack && done.all (fun w => bankOk w.1) && reqs.all (fun r => decide (r.port < 5 ∧ r.offset < 25769803776))
  | .refresh stack bank => stackOk stack && bankOk bank
  | .idleSelfRefresh stack => stackOk stack
  | .patrolScrub stack offset _ => stackOk stack && decide (offset < 25769803776)
  | .trainingStart => true
  | .fastTraining stack _ _ _ => stackOk stack
  | .fullTraining stack run => stackOk stack && run.trims.all (fun t => decide (t.1 < 32))
  | .strobeTracking stack pc _ => stackOk stack && decide (pc < 32)
  | .postPackageRepair stack bank row => stackOk stack && bankOk bank && decide (row < 16384)
  | .retireGo agent stack channel yieldTo => agent.wf && stackOk stack && decide (channel < 16 ∧ yieldTo < 16)
  | .migrationComplete stack granules => stackOk stack && decide (granules ≤ 5898240)
  | .frameReceive source _ => sourceOk source
  | .frameTransmit dest _ => sourceOk dest
  | .laneLock lane => lineOk lane
  | .adaptationComplete lane _ => lineOk lane
  | .adaptationCycle lane _ => lineOk lane
  | .linkChange port _ => lineOk port
  | .calendarSwitch agent group => agent.wf && groupOk group
  | .calendarSwitchDone group => groupOk group
  | .saRead agent index => agent.wf && saOk index
  | .saWrite agent index => agent.wf && saOk index
  | .timeSet agent => agent.wf
  | .timeStep agent => agent.wf
  | .ppsEdge slew => decide (-100000 ≤ slew ∧ slew ≤ 100000)
  | .ppsOutEdge => true
  | .tsFifoRead agent port => agent.wf && lineOk port
  | .retire agent unit _ => agent.wf && decide (unit < 256)
  | .reinstate agent unit => agent.wf && decide (unit < 256)
  | .abort agent unit => agent.wf && decide (unit < 256)
  | .sliceDrainEnd slice => sliceOk slice
  | .bankSpareLoaded bank => decide (bank < 32)
  | .laneRetireWindowEnd lane => laneOk lane
  | .stageComplete unit _ => unitOk unit
  | .shadowCompare unit _ => unitOk unit
  | .columnRepair die _ _ => decide (die < 2)
  | .phaseCheck rail _ _ => railOk rail
  | .lifeRecordHourly => true
  | .vinValid => true
  | .vinLoss => true
  | .vinLow _ => true
  | .vinSurge _ => true
  | .vinOvervoltage => true
  | .vauxValid => true
  | .vauxLoss => true
  | .lockstepReset => true
  | .railInRegulation rail => railOk rail
  | .railTimeout rail => railOk rail
  | .adcSample channel _ => decide (channel < 32)
  | .stackThrottleStep stack => stackOk stack
  | .ruleWrite agent rule word _ => agent.wf && decide (rule < 256 ∧ word < 2)
  | .channelSourceWrite agent channel _ => agent.wf && decide (channel < 32)
  | .powerTransition => true
  | .slicePowerDown slice => sliceOk slice
  | .slicePowerDownTimeout slice => sliceOk slice
  | .slicePowerUp slice _ => sliceOk slice
  | .holdoverEntryDrainEnd => true
  | .holdoverReturn => true
  | .dormantEntry => true
  | .dormantToHoldover _ _ => true
  | .standingCoatLoaded => true
  | .perstAssert => true
  | .perstDeassert => true
  | .endpointReady => true
  | .wakeRequest rule _ _ => decide (rule < 256)
  | .linkL0 => true
  | .hostResume => true
  | .lathStart straps => decide (straps < 4)
  | .dieResetExit => true
  | .refclkStable => true
  | .coatLoad _ _ => true
  | .coatActive => true
  | .smbusBlockWrite address offset _ _ _ => decide (address < 128 ∧ offset < 2 ^ 32)
  | .smbusSetOffset address offset _ => decide (address < 128 ∧ offset < 2 ^ 32)
  | .smbusBlockRead address => decide (address < 128)
  | .pcFilterWrite fn word _ => fnOk fn && decide (word < 3)
  | .healthReport => true
  | .twinReportReceive report => decide (report.length = 256)
  | .busMasterEnableClear fn => fnOk fn
  | .heartbeatReceived epoch _ => decide (epoch < 2 ^ 32)
  | .twinLearnEvent ev => ev.wf
  | .annealTransfer item => item.wf
  | .twinRecoatDigest _ => true
  | .coatMismatchTimeout => true
  | .clockLockLoss lane => lineOk lane
  | .xtalFail => true
  | .sramScrub die _ _ _ => decide (die < 2)

end Sys2Proof
end

