-- ==== Sys2Proof/Safety.lean ====
section
/-! DEFINITION. The terms that statements about the module are made in: what must hold for a command to have its own
effect, and what a command leaves unchanged. -/

namespace Sys2Proof.Machine

/-! ### Threads -/

/-- Thread `t` is about to execute `word`: it can issue, and the word at its PC is `word` with good parity
(R105, R123). -/
def Issues (s : State) (t : Tid) (word : BitVec 32) : Prop :=
  t.wf = true ∧ canIssue s t = true ∧ fetchWord s t = (word, false)

/-- Thread `t` with its PC at the next word, and the instruction that it has issued noted (R99). -/
def advance (s : State) (t : Tid) : Thread :=
  { s.thread t with
    pc := ((s.thread t).pc + 1) % codeSize t, oldNext := none, instr := ((s.thread t).pc, (fetchWord s t).1) }

/-- Nothing but thread `t` and the issue-slot counts differ between `s` and `s'`; the thread is `th`. -/
def OnlyThread (s : State) (t : Tid) (slots : Nat) (th : Thread) (s' : State) : Prop :=
  s'.thread t = th ∧
  (∀ u : Tid, u.wf = true → u ≠ t → s'.thread u = s.thread u) ∧
  s'.cnt = (countSlots s t slots).cnt ∧
  { s' with cnt := s.cnt, hn := { s'.hn with threads := s.hn.threads } } = s

/-- The rule of a packet instruction `c` that acts on its own thread alone. When thread `t` is about to execute its word:
with fields in their legal sets the command answers a state in which only the thread differs, changed by `eff`; with
others it answers the thread's fault 1 (R125). -/
def ThreadRule (c : Instr) (s : State) (t : Tid) (word : BitVec 32) (slots : Nat) (legal : Prop)
    (eff : Thread → Thread) : Prop :=
  Issues s t word →
    (legal → ∃ s', exec c s = .next s' ∧ OnlyThread s t slots (eff (advance s t)) s') ∧
    (¬legal → exec c s = .next (threadFault s t 1 (s.thread t).pc word 0))

/-- The rule of a packet instruction in general: legal fields give the effect `eff` on the state in which the
instruction has issued, others give fault 1. -/
def IssueRule (c : Instr) (s : State) (t : Tid) (word : BitVec 32) (legal : Prop)
    (eff : State → Prop) : Prop :=
  Issues s t word →
    (legal → ∃ s', exec c s = .next s' ∧ eff s') ∧
    (¬legal → exec c s = .next (threadFault s t 1 (s.thread t).pc word 0))

/-- A thread whose event line `line` has asserted: the pending bit is set, and a WEVT that waits for it goes on with the
pending bits it asked for (R90, R169). -/
def lineAsserted (th : Thread) (line : Nat) : Thread :=
  let pend := th.events ||| BitVec.ofNat 64 (2 ^ line)
  match th.blocked with
  | .wevt d mask =>
    if pend &&& mask ≠ 0 then
      { th.setReg d (pend &&& mask) with events := pend &&& ~~~mask, blocked := .none }
    else { th with events := pend }
  | _ => { th with events := pend }

/-- Every thread but `t` is as it was. -/
def OtherThreads (s : State) (t : Tid) (s' : State) : Prop :=
  ∀ u : Tid, u.wf = true → u ≠ t → s'.thread u = s.thread u

/-- Thread `t` has asked for `asked` on channel `ch`: a request of kind `sent` is on its way, its reply entry reserved and
the packet's PMAT and MTR numbers `pmats` and `mtrs`; or, with no entry free, the thread is held on the channel, its request
not yet numbered (R93, R149, R151). -/
def RequestSent (s : State) (t : Tid) (ch : Nat) (asked sent : ReqKind) (pmats mtrs : Nat) (s' : State) : Prop :=
  let numbers := fun (x : State) => (x.thread t).job.map (fun j => (j.pmats, j.mtrs))
  let c := s.chan (coreOf t) ch
  let c' := s'.chan (coreOf t) ch
  if c.entries.length + c.reserved.length < 8 then
    ∃ r : Req, r.id = s.hn.nextReq ∧ r.tid = t ∧ r.ch = ch ∧ r.kind = sent ∧
      s'.hn.reqs = s.hn.reqs ++ [r] ∧ s'.hn.nextReq = r.id + 1 ∧
      c'.reserved = c.reserved ++ [r.id] ∧ c'.entries = c.entries ∧ (s'.thread t).blocked = .none ∧
      numbers s' = (s.thread t).job.map (fun _ => (pmats, mtrs))
  else
    s'.hn.reqs = s.hn.reqs ∧ c'.held = c.held ++ [threadNo t] ∧ c'.entries = c.entries ∧
      (s'.thread t).blocked = .request ch asked ∧ numbers s' = numbers s

/-- A command leaves `s` as `s'` in everything but its threads, channels, requests, local memory, coats and counters. -/
def SameOutside (s s' : State) : Prop :=
  s'.pending = s.pending ∧ s'.free = s.free ∧ s'.out = s.out ∧ s'.csr = s.csr ∧ s'.host = s.host ∧ s'.clk = s.clk ∧ s'.lk = s.lk ∧ s'.bm = s.bm ∧
  s'.q = s.q ∧ s'.fb = s.fb ∧ s'.tn = s.tn ∧ s'.fr = s.fr ∧ s'.tw = s.tw ∧ s'.hb = s.hb ∧ s'.pt = s.pt ∧
  s'.sv = s.sv ∧ s'.lt = s.lt

/-! ### Queues and lanes -/

/-- No block of a queued packet's buffer is uncorrectable (R456). -/
def Clean (s : State) (x : Queued) : Prop := (readBuf s x.handle x.pkt).2 = true

/-- A control message for module `m` has joined those that wait for the first lane of its pattern, and no other lane has
changed; with no lane it goes nowhere (R337). -/
def ControlSent (s : State) (m : Nat) (msg : Word) (s' : State) : Prop :=
  match patternOf s m with
  | k :: _ => laneTx s' k = { laneTx s k with control := (laneTx s k).control ++ [(m, msg)] } ∧
      ∀ j, j ≠ k → laneTx s' j = laneTx s j
  | [] => s'.fb.tx = s.fb.tx

/-! ### Register accesses -/

/-- Instances of a register family in one realm's view, or in CSR space. -/
def regCount (r : Reg) : Nat := (regDesc r).dims.foldl (fun a e => a * e.2) 1

/-- The instance, over all realms, that instance `i` of a register is in a realm's view (R34). -/
def regInst (r : Reg) (realm i : Nat) : Nat := if (regDesc r).view = .perRealm then realm * regCount r + i else i

/-- Word `w` of instance `i` of a register is in the map. -/
def RegOk (r : Reg) (i w : Nat) : Prop :=
  i < regCount r ∧ 64 * w < (regDesc r).bits ∧ (r = .FR_TEMPLATE → 8 ≤ i) ∧ (r = .SY_SVC_UNIT → unitExists i = true)

/-- Agent `a`'s access to word `w` of instance `i` of a register reaches it now and may write it (R34 to R37, R549,
R593), and no destination of a killed MOVE is still to take its undefined bytes (R443; none ever is between commands). -/
def Reaches (s : State) (a : Agent) (r : Reg) (i w : Nat) : Prop :=
  a.wf = true ∧ RegOk r i w ∧ canWrite s a r i w = true ∧ s.tw.lost = []

/-- The registers of every instance that `p` does not hold of are as they were. -/
def OtherRegisters (s s' : State) (p : Reg → Nat → Prop) : Prop :=
  ∀ r i w, ¬p r i → s'.word r i w = s.word r i w

/-- An access leaves `s` as `s'` but for registers, counters and the agent's held half. -/
def AccessOnly (s s' : State) : Prop :=
  { s' with csr := s.csr, cnt := s.cnt, host := { s'.host with held := s.host.held } } = s

/-- A register that has no effect beside the value that is stored: its writes are always taken, and no other register
and no unit depends on it. -/
def plainReg (r : Reg) : Bool :=
  !List.contains [Reg.SY_ABI_SELECT, .SY_RING_COAL, .TW_CH_PC, .PT_FLEXE_CAL, .SY_REALM_CTRL, .SY_RING_BASE, .SY_PUNT_BASE,
    .VT_POOL_GEOM, .PT_PORT, .PT_MACSEC, .SY_RING_PTRS, .LK_GANG, .LK_BANK_MODE, .LK_VRF_MAP, .VT_MTR_WIN, .VT_NODE,
    .VT_EQ, .VT_VOQ, .VT_SHAPER, .FB_MODE, .FB_LINK, .FB_FC_CTRL] r &&
  !List.contains [Reg.FB_MSESS, .TN_CTRL, .TN_STATUS, .TN_STREAM_WIN, .FR_TARGET, .FR_CTRL, .FR_READ, .TW_CH_CTRL, .TW_TIMER,
    .TW_DOORBELL, .HB_RETIRE, .PT_FLEXE_GRP, .PT_SA_WIN, .PT_TIME_ADJ, .PT_SYNCE, .SY_SVC_CMD, .LT_CHAN, .LT_DOMAIN,
    .LT_POWER, .LT_RULE, .PC_FILTER] r

/-! ### Command rings -/

/-- Ring `k` of function `fn` is about to read a descriptor whose bytes are `d` (R56, R57, R61, R595). -/
def RingTakes (s : State) (fn k : Nat) (d : List Byte) : Prop :=
  fn ≤ 63 ∧ k ≤ 15 ∧ (ringAt s fn k).run = .idle ∧ ringReady s fn k = true ∧ hostBytes s (headAddr s fn k) 64 = d ∧
  (bitAt (ringFlags s fn d) 0 = true → fenceOpen s fn k = true)

/-- The state in which ring `k` has read its descriptor, HEAD has moved past it, and the command is in hand. -/
def ringTaken (s : State) (fn k : Nat) (binds : List BindDecl) : State :=
  let n := ringNo fn k
  let addr := headAddr s fn k
  let r := s.hostRead fn serveMaster addr 64
  setRun (r.2.wr F.SY_RING_PTRS.HEAD n ((s.rd F.SY_RING_PTRS.HEAD n + 1) % 2 ^ s.rd F.SY_RING_BASE.LOG2_ENTRIES n))
    fn k (.waiting addr r.1 binds)

/-- The descriptor that ring `k` read in `s` is complete in `s'`: its first four bytes are the opcode, the flags and
the status, its parameters hold what `ws` says, and the ring has no command in hand (R58). -/
def RingDone (s : State) (fn k : Nat) (d : List Byte) (status : Nat) (ws : List (Nat × List Byte)) (s' : State) : Prop :=
  let addr := headAddr s fn k
  hostBytes s' addr 4 = leBytes 2 (ringOp s fn d) ++ leBytes 1 (ringFlags s fn d) ++ leBytes 1 status ∧
  (∀ w ∈ ws, hostBytes s' (addr + w.1) w.2.length = w.2) ∧ (ringAt s' fn k).run = .idle

/-- HEAD of ring `k` is one further in `s'`, modulo the ring's entries (R57). -/
def HeadMoved (s : State) (fn k : Nat) (s' : State) : Prop :=
  let n := ringNo fn k
  s'.rd F.SY_RING_PTRS.HEAD n =
    (s.rd F.SY_RING_PTRS.HEAD n + 1) % 2 ^ s.rd F.SY_RING_BASE.LOG2_ENTRIES n % 2 ^ 16

end Sys2Proof.Machine
end

