-- ==== Sys2Proof/Certificates/Slice0/Obligations.lean ====
section
/-! DEFINITION. Statements about the module, taken from the manual's numbered rules. -/

open Sys2Proof Sys2Proof.Machine

/-! ### Packet instructions (Henig Packet Instruction Set) -/

/-- R127. The format-A integer instructions: D takes its row's function of A and B, nothing else changes, and a field
outside its legal set is fault 1. -/
def Obligations.IntegerInstructionsSetTheirRegister : Prop :=
  ∀ (s : State) (t : Tid) (f : FmtA),
    let a := (s.thread t).reg f.a.toNat
    let b := (s.thread t).reg f.b.toNat
    let n := b.toNat % 64
    let put := fun (v : Word) (th : Thread) => th.setReg f.d.toNat v
    ThreadRule (.iAdd t f) s t (encA 0x01 f) 1 (f.x = 0) (put (a + b)) ∧
    ThreadRule (.iSub t f) s t (encA 0x02 f) 1 (f.x = 0) (put (a - b)) ∧
    ThreadRule (.iAnd t f) s t (encA 0x03 f) 1 (f.x = 0) (put (a &&& b)) ∧
    ThreadRule (.iOr t f) s t (encA 0x04 f) 1 (f.x = 0) (put (a ||| b)) ∧
    ThreadRule (.iXor t f) s t (encA 0x05 f) 1 (f.x = 0) (put (a ^^^ b)) ∧
    ThreadRule (.iAndn t f) s t (encA 0x06 f) 1 (f.x = 0) (put (a &&& ~~~b)) ∧
    ThreadRule (.iShl t f) s t (encA 0x07 f) 1 (f.x = 0) (put (BitVec.ofNat 64 (a.toNat * 2 ^ n))) ∧
    ThreadRule (.iShr t f) s t (encA 0x08 f) 1 (f.x = 0) (put (BitVec.ofNat 64 (a.toNat / 2 ^ n))) ∧
    ThreadRule (.iSar t f) s t (encA 0x09 f) 1 (f.x = 0) (put (BitVec.ofInt 64 (a.toInt / 2 ^ n))) ∧
    ThreadRule (.iMul t f) s t (encA 0x0A f) 2 (f.x = 0) (put (BitVec.ofNat 64 (a.toNat * b.toNat))) ∧
    ThreadRule (.iSel t f) s t (encA 0x0B f) 1 (f.x.toNat < 8)
      (put (if (s.thread t).preds.getLsbD f.x.toNat then a else b)) ∧
    ThreadRule (.iClz t f) s t (encA 0x0C f) 1 (f.b = 0 ∧ f.x = 0) (put (clz64 a)) ∧
    (clz64 a).toNat ≤ 64 ∧ a.toNat < 2 ^ (64 - (clz64 a).toNat) ∧
    ((clz64 a).toNat < 64 → 2 ^ (63 - (clz64 a).toNat) ≤ a.toNat) ∧
    ThreadRule (.iBswap t f) s t (encA 0x0D f) 1 (f.b = 0 ∧ f.x = 0)
      (put (BitVec.ofNat 64 (beNat (leBytes 8 a.toNat)))) ∧
    ThreadRule (.iHash t f) s t (encA 0x0E f) 2 (f.x = 0)
      (put (BitVec.ofNat 64 (crc32cRun (b.toNat % 2 ^ 32) (beBytes 8 a.toNat)))) ∧
    ThreadRule (.iCsum t f) s t (encA 0x0F f) 1 (f.x = 0) (put (csum64 a b)) ∧
    (csum64 a b).toNat < 65536 ∧
    (csum64 a b).toNat % 65535 = (parts16 a.toNat + parts16 b.toNat) % 65535 ∧
    ((csum64 a b).toNat = 0 ↔ a = 0 ∧ b = 0)

/-- R128. The compare and predicate instructions set the predicates their row names and leave every other. -/
def Obligations.CompareInstructionsSetTheirPredicate : Prop :=
  ∀ (s : State) (t : Tid) (f : FmtA),
    let a := (s.thread t).reg f.a.toNat
    let b := (s.thread t).reg f.b.toNat
    let p := (s.thread t).preds
    let bit := fun (v : Bool) (i : Nat) => if i = f.x.toNat then v else p.getLsbD i
    let put := fun (v : Bool) (th : Thread) =>
      let all := (List.range 8).foldl (fun n i => n + if bit v i then 2 ^ i else 0) 0
      { th with preds := BitVec.ofNat 8 all }
    ThreadRule (.iCeq t f) s t (encA 0x10 f) 1 (f.d = 0 ∧ f.x.toNat < 8) (put (decide (a = b))) ∧
    ThreadRule (.iCne t f) s t (encA 0x11 f) 1 (f.d = 0 ∧ f.x.toNat < 8) (put (decide (a ≠ b))) ∧
    ThreadRule (.iCltu t f) s t (encA 0x12 f) 1 (f.d = 0 ∧ f.x.toNat < 8) (put (decide (a.toNat < b.toNat))) ∧
    ThreadRule (.iClt t f) s t (encA 0x13 f) 1 (f.d = 0 ∧ f.x.toNat < 8) (put (decide (a.toInt < b.toInt))) ∧
    ThreadRule (.iPlog t f) s t (encA 0x14 f) 1 (f.d = 0 ∧ f.a.toNat < 8 ∧ f.b.toNat < 8 ∧ f.x.toNat < 128)
      (fun th => th.setPred (f.x.toNat % 8)
        ((f.x.toNat / 8).testBit (2 * (p.getLsbD f.a.toNat).toNat + (p.getLsbD f.b.toNat).toNat))) ∧
    ThreadRule (.iPtog t f) s t (encA 0x15 f) 1 (f.a = 0 ∧ f.b = 0 ∧ f.x = 0)
      (fun th => th.setReg f.d.toNat (BitVec.ofNat 64 p.toNat)) ∧
    ThreadRule (.iGtop t f) s t (encA 0x16 f) 1 (f.d = 0 ∧ f.b = 0 ∧ f.x = 0)
      (fun th => { th with preds := BitVec.ofNat 8 (a.toNat % 256) })

/-- R129 and R138. The format-I arithmetic and bit-field instructions give D, or the predicate of a compare, their row's
value; nothing else changes, a field outside its legal set is fault 1, and ORI g0, g0, 0 is the word 0x4400_0000. -/
def Obligations.ImmediateInstructionsSetTheirRegister : Prop :=
  ∀ (s : State) (t : Tid) (f : FmtI),
    let a := (s.thread t).reg f.a.toNat
    let d := (s.thread t).reg f.d.toNat
    let imm := f.imm.toNat
    let lsb := imm / 64
    let len := imm % 64 + 1
    let put := fun (v : Word) (th : Thread) => th.setReg f.d.toNat v
    ThreadRule (.iAddi t f) s t (encI 0x20 f) 1 (f.p = 0) (put (BitVec.ofInt 64 (a.toInt + f.imm.toInt))) ∧
    ThreadRule (.iAndi t f) s t (encI 0x21 f) 1 (f.p = 0) (put (a &&& BitVec.ofNat 64 imm)) ∧
    ThreadRule (.iOri t f) s t (encI 0x22 f) 1 (f.p = 0) (put (a ||| BitVec.ofNat 64 imm)) ∧
    ThreadRule (.iXori t f) s t (encI 0x23 f) 1 (f.p = 0) (put (a ^^^ BitVec.ofNat 64 imm)) ∧
    ThreadRule (.iShli t f) s t (encI 0x24 f) 1 (imm < 64 ∧ f.p = 0) (put (BitVec.ofNat 64 (a.toNat * 2 ^ imm))) ∧
    ThreadRule (.iShri t f) s t (encI 0x25 f) 1 (imm < 64 ∧ f.p = 0) (put (BitVec.ofNat 64 (a.toNat / 2 ^ imm))) ∧
    ThreadRule (.iSari t f) s t (encI 0x26 f) 1 (imm < 64 ∧ f.p = 0) (put (BitVec.ofInt 64 (a.toInt / 2 ^ imm))) ∧
    ThreadRule (.iOrsh t f) s t (encI 0x27 f) 1 (f.p = 0) (put (BitVec.ofNat 64 (a.toNat * 4096 + imm))) ∧
    ThreadRule (.iCeqi t f) s t (encI 0x28 f) 1 (f.d = 0) (fun th => th.setPred f.p.toNat (decide (a.toNat = imm))) ∧
    ThreadRule (.iCltui t f) s t (encI 0x29 f) 1 (f.d = 0) (fun th => th.setPred f.p.toNat (decide (a.toNat < imm))) ∧
    ThreadRule (.iBext t f) s t (encI 0x2A f) 1 (lsb + len ≤ 64 ∧ f.p = 0)
      (put (BitVec.ofNat 64 (a.toNat / 2 ^ lsb % 2 ^ len))) ∧
    ThreadRule (.iBins t f) s t (encI 0x2B f) 1 (lsb + len ≤ 64 ∧ f.p = 0)
      (put (BitVec.ofNat 64 (d.toNat % 2 ^ lsb + a.toNat % 2 ^ len * 2 ^ lsb +
        d.toNat / 2 ^ (lsb + len) * 2 ^ (lsb + len)))) ∧
    (f.d = 0 → f.a = 0 → f.p = 0 → f.imm = 0 → encI 0x22 f = 0x44000000#32)

/-- R113 and R114. Register g0 reads 0 and discards writes; every other register holds what is written to it; a
predicate holds what is set, and no other predicate changes. -/
def Obligations.RegisterAndPredicateWrites : Prop :=
  ∀ (th : Thread) (r q : Nat) (v : Word) (p k : Nat) (b : Bool),
    th.reg 0 = 0 ∧ th.setReg 0 v = th ∧
    (0 < r → r < 32 → (th.setReg r v).reg r = v) ∧
    (q ≠ r → (th.setReg r v).reg q = th.reg q) ∧
    { th.setReg r v with regs := th.regs } = th ∧
    (p < 8 → (th.setPred p b).pred p = b) ∧
    (k ≠ p → (th.setPred p b).pred k = th.pred k) ∧
    { th.setPred p b with preds := th.preds } = th

/-- R156. A branch adds its signed offset to its own address, JR takes the word address in A, CALL leaves its address
plus 1 in g31; every address is reduced modulo the code memory (R120). -/
def Obligations.BranchesSetThePc : Prop :=
  ∀ (s : State) (t : Tid) (f : FmtB) (g : FmtA),
    let own := (s.thread t).pc % codeSize t
    let dst := (((own : Int) + f.off.toInt) % (codeSize t : Int)).toNat
    let a := (s.thread t).reg g.a.toNat
    ThreadRule (.iBr t f) s t (encB 0x58 f) 1 (f.s = 0 ∧ f.p = 0 ∧ f.z = 0) (fun th => { th with pc := dst }) ∧
    ThreadRule (.iBp t f) s t (encB 0x59 f) 1 (f.z = 0)
      (fun th => if (s.thread t).pred f.p.toNat = decide (f.s = 1) then { th with pc := dst } else th) ∧
    ThreadRule (.iCall t f) s t (encB 0x5A f) 1 (f.s = 0 ∧ f.p = 0 ∧ f.z = 0)
      (fun th => { th.setReg 31 (BitVec.ofNat 64 ((own + 1) % codeSize t)) with pc := dst }) ∧
    ThreadRule (.iJr t g) s t (encA 0x19 g) 1 (g.d = 0 ∧ g.b = 0 ∧ g.x = 0)
      (fun th => { th with pc := a.toNat % codeSize t })

/-- R130 to R133 and R136. LDN, STN, KPUTN, LDNV and STNV address the frame window at their layer offset or register; an
absent layer reads 0 and writes nothing. Window nibbles are numbered and read as R132 says: 0 above nibble 1,023 and beyond
the packet, where nothing is written. -/
def Obligations.WindowInstructionsMoveNibbles : Prop :=
  (∀ (s : State) (t : Tid) (f : FmtN) (g : FmtA),
    let th0 := s.thread t
    let data := th0.pktData
    let legal := isSteward t = false ∧ f.base.toNat ≤ 16 ∧ 1 ≤ f.w.toNat ∧ f.w.toNat ≤ 16
    let value := match nAddr s t f with
      | some e => winRead data e f.w.toNat
      | none => 0
    let e := (th0.reg g.a.toNat).toNat % 65536
    let w := min ((th0.reg g.b.toNat).toNat % 32) 16
    ThreadRule (.iLdn t f) s t (encN 0x40 f) 1 legal (fun th => th.setReg f.g.toNat (BitVec.ofNat 64 value)) ∧
    ThreadRule (.iStn t f) s t (encN 0x41 f) 1 legal (fun th =>
      match nAddr s t f with
      | some e => th.setData (winWrite data e f.w.toNat (th0.reg f.g.toNat).toNat)
      | none => th) ∧
    ThreadRule (.iKputn t f) s t (encN 0x42 f) 1 (legal ∧ f.g = 0)
      (fun th => keyAppend th (natNibs f.w.toNat value)) ∧
    ThreadRule (.iLdnv t g) s t (encA 0x17 g) 1 (isSteward t = false ∧ g.x = 0)
      (fun th => th.setReg g.d.toNat (BitVec.ofNat 64 (winRead data e w))) ∧
    ThreadRule (.iStnv t g) s t (encA 0x18 g) 1 (isSteward t = false ∧ g.x = 0)
      (fun th => th.setData (winWrite data e w (th0.reg g.d.toNat).toNat))) ∧
  (∀ (data : List Byte) (e w v p : Nat),
    (p < 1024 → p < 2 * data.length → p % 2 = 0 → winNib data p = (data.getD (p / 2) 0).toNat / 16) ∧
    (p < 1024 → p < 2 * data.length → p % 2 = 1 → winNib data p = (data.getD (p / 2) 0).toNat % 16) ∧
    (1024 ≤ p ∨ 2 * data.length ≤ p → winNib data p = 0) ∧
    winRead data e w < 16 ^ w ∧
    (∀ i, i < w → winRead data e w / 16 ^ (w - 1 - i) % 16 = winNib data (e + i)) ∧
    (winWrite data e w v).length = data.length ∧
    winNib (winWrite data e w v) p =
      if e ≤ p ∧ p < e + w ∧ p < 1024 ∧ p < 2 * data.length then v / 16 ^ (w - 1 - (p - e)) % 16 else winNib data p)

/-- R140. An append writes its nibbles at KPOS, drops those that would fall at 160 or beyond, and moves KPOS; KPUTG
appends the low nibbles of A, most significant first, and KSEEK sets KPOS and clears the rest of K when asked. -/
def Obligations.KeyInstructionsFillTheKey : Prop :=
  (∀ (s : State) (t : Tid) (f : FmtI),
    let a := ((s.thread t).reg f.a.toNat).toNat
    let n := f.imm.toNat
    ThreadRule (.iKputg t f) s t (encI 0x2C f) 1 (1 ≤ n ∧ n ≤ 16 ∧ f.d = 0 ∧ f.p = 0)
      (fun th => keyAppend th (natNibs n a)) ∧
    ThreadRule (.iKseek t f) s t (encI 0x2D f) 1 (n % 256 ≤ 160 ∧ n < 512 ∧ f.d = 0 ∧ f.a = 0 ∧ f.p = 0)
      (fun th =>
        let key := if 256 ≤ n then BitVec.ofNat 640 (th.key.toNat % 16 ^ (n % 256)) else th.key
        { th with kpos := n % 256, key := key })) ∧
  (∀ (th : Thread) (ns : List (BitVec 4)) (n v i : Nat),
    (keyAppend th ns).kpos = max th.kpos (min 160 (th.kpos + ns.length)) ∧
    (∀ j, j < 160 → keyNib (keyAppend th ns).key j =
      if th.kpos ≤ j ∧ j < th.kpos + ns.length then ns.getD (j - th.kpos) 0 else keyNib th.key j) ∧
    { keyAppend th ns with key := th.key, kpos := th.kpos } = th ∧
    (natNibs n v).length = n ∧
    (i < n → (natNibs n v).getD i 0 = BitVec.ofNat 4 (v / 16 ^ (n - 1 - i))))

/-- R133 to R135. LDT reads ticket bytes, least significant first; STT writes them, but for the bytes the hardware
writes: byte 2 bits [6:5], bytes 4 to 11 and bytes 28 to 45. -/
def Obligations.TicketInstructionsMoveBytes : Prop :=
  (∀ (s : State) (t : Tid) (f : FmtN),
    let off := f.off.toNat
    let w := f.w.toNat
    let legal := isSteward t = false ∧ f.base = 0 ∧ 1 ≤ w ∧ w ≤ 16 ∧ w % 2 = 0 ∧ off % 2 = 0 ∧ off + w ≤ 256
    let tk := (s.thread t).ticket
    let g := ((s.thread t).reg f.g.toNat).toNat
    ThreadRule (.iLdt t f) s t (encN 0x43 f) 1 legal
      (fun th => th.setReg f.g.toNat (BitVec.ofNat 64 (tk.toNat / 256 ^ (off / 2) % 256 ^ (w / 2)))) ∧
    ThreadRule (.iStt t f) s t (encN 0x44 f) 1 legal (fun th => th.updJob (fun j =>
      let pkt := { j.pkt with ticket := sttBytes j.pkt.ticket (off / 2) (w / 2) g }
      { j with pkt := pkt }))) ∧
  (∀ (tk : BitVec 1024) (i n v j : Nat), i + n ≤ 128 → j < 128 →
    let old := tk.toNat / 256 ^ j % 256
    let new := v / 256 ^ (j - i) % 256
    (sttBytes tk i n v).toNat / 256 ^ j % 256 =
      if j < i ∨ i + n ≤ j then old
      else if (4 ≤ j ∧ j ≤ 11) ∨ (28 ≤ j ∧ j ≤ 45) then old
      else if j = 2 then new % 32 + old / 32 % 4 * 32 + new / 128 * 128
      else new)

/-- R144 and R145. LDL reads the core's local memory at A plus the signed offset, least significant byte first; an access
that leaves what the thread may address is fault 2. -/
def Obligations.LocalMemoryAccesses : Prop :=
  ∀ (s : State) (t : Tid) (f : FmtI),
    let th := s.thread t
    let size := 2 ^ (f.imm.toNat / 1024)
    let imm := f.imm.toNat % 1024
    let off : Int := if imm < 512 then imm else (imm : Int) - 1024
    let a := ((((th.reg f.a.toNat).toNat : Int) + off) % (if isSteward t then 131072 else 65536)).toNat
    let base := threadNo t * 8192
    let open_ := (isSteward t = true ∧ threadNo t = 0 ∧ a + size ≤ 131072) ∨ (base ≤ a ∧ a + size ≤ base + 8192)
    Issues s t (encI 0x2E f) →
      (f.p = 0 → open_ → ∃ s', exec (.iLdl t f) s = .next s' ∧
        OnlyThread s t 1 ((advance s t).setReg f.d.toNat
          (BitVec.ofNat 64 (leNat ((List.range size).map (fun i => lmemByte s (coreOf t) (a + i)))))) s') ∧
      (f.p = 0 → ¬open_ → exec (.iLdl t f) s = .next (threadFault s t 2 th.pc (encI 0x2E f) a)) ∧
      (f.p ≠ 0 → exec (.iLdl t f) s = .next (threadFault s t 1 th.pc (encI 0x2E f) 0))

/-- R144 and R145. STL writes the low bytes of D to the core's local memory at A plus the signed offset, and no other byte; an
access that leaves what the thread may address is fault 2. -/
def Obligations.LocalMemoryStores : Prop :=
  ∀ (s : State) (t : Tid) (f : FmtI),
    let th := s.thread t
    let size := 2 ^ (f.imm.toNat / 1024)
    let imm := f.imm.toNat % 1024
    let off : Int := if imm < 512 then imm else (imm : Int) - 1024
    let a := ((((th.reg f.a.toNat).toNat : Int) + off) % (if isSteward t then 131072 else 65536)).toNat
    let base := threadNo t * 8192
    let open_ := (isSteward t = true ∧ threadNo t = 0 ∧ a + size ≤ 131072) ∨ (base ≤ a ∧ a + size ≤ base + 8192)
    Issues s t (encI 0x2F f) →
      (f.p = 0 → open_ → ∃ s', exec (.iStl t f) s = .next s' ∧ SameOutside s s' ∧
        s'.thread t = advance s t ∧ OtherThreads s t s' ∧
        ∀ c b, lmemByte s' c b =
          if c = coreOf t ∧ a ≤ b ∧ b < a + size then
            BitVec.ofNat 8 ((th.reg f.d.toNat).toNat / 256 ^ (b - a))
          else lmemByte s c b) ∧
      (f.p = 0 → ¬open_ → exec (.iStl t f) s = .next (threadFault s t 2 th.pc (encI 0x2F f) a)) ∧
      (f.p ≠ 0 → exec (.iStl t f) s = .next (threadFault s t 1 th.pc (encI 0x2F f) 0))

/-- R146. RDSYS takes the system value that imm selects; other immediates are fault 1. -/
def Obligations.SystemValuesOfRdsys : Prop :=
  ∀ (s : State) (t : Tid) (f : FmtI),
    let imm := f.imm.toNat
    let legal := imm ≤ 5 ∧ f.a = 0 ∧ f.p = 0
    let rule := fun (v : Nat) => ThreadRule (.iRdsys t f) s t (encI 0x30 f) 1 legal
      (fun th => th.setReg f.d.toNat (BitVec.ofNat 64 v))
    (imm = 0 → rule (s.clk.ptp % 2 ^ 63 + if s.on F.PT_TIME_CTRL.VALID 0 then 0 else 2 ^ 63)) ∧
    (imm = 1 → dieOf t = 1 → rule (s.clk.ns * 8 / 5)) ∧
    (imm = 1 → dieOf t = 0 → rule (henigNs s * 9 / 5)) ∧
    (imm = 2 → rule (match (s.thread t).job with
      | some j => s.clk.ns - j.takenAt
      | none => 0)) ∧
    (imm = 3 → rule (match t with
      | .packet slice core k => k + core * 2 ^ 8 + slice * 2 ^ 16
      | .steward die core k => k + core * 2 ^ 16 + die * 2 ^ 24 + 2 ^ 25)) ∧
    (imm = 4 → rule (s.rd F.SY_COAT_STATUS.GENERATION 0 + s.rd F.SY_COAT_STATUS.ACTIVE_SLOT 0 * 2 ^ 32)) ∧
    (imm = 5 → rule (match (s.thread t).job with
      | some j => j.slot + 2 * (j.gen % 2 ^ 31) + (if j.side = .egress then 2 ^ 32 else 0)
      | none => slotGen s (threadSlot s t) + threadSlot s t * 2 ^ 32)) ∧
    (5 < imm → rule 0)

/-- R165, R166 and R168. CST stores the word with good parity in the memory its thread fetches from; the word after the
CST executes next in its old form; nothing else differs. -/
def Obligations.CodeStoreWritesOneWord : Prop :=
  ∀ (s : State) (t : Tid) (f : FmtA),
    let a := ((s.thread t).reg f.a.toNat).toNat
    let b := ((s.thread t).reg f.b.toNat).toNat
    let next := ((s.thread t).pc + 1) % codeSize t
    IssueRule (.iCst t f) s t (encA 0x1A f) (f.d = 0 ∧ f.x = 0) (fun s' =>
      codeWord s' t a = (BitVec.ofNat 32 b, false) ∧
      (∀ k, k % codeSize t ≠ a % codeSize t → codeWord s' t k = codeWord s t k) ∧
      coatOf s' (1 - threadSlot s t) = coatOf s (1 - threadSlot s t) ∧
      fetchWord s' t = codeWord s t next ∧
      { s'.thread t with oldNext := none } = advance s t ∧
      OtherThreads s t s' ∧ SameOutside s s')

/-- R141 to R143. FINS and FDEL edit the packet at byte A, set P to 1 and adjust the layer offsets; a refused edit sets P to
0 and changes nothing else. -/
def Obligations.EditsOfThePacket : Prop :=
  ∀ (s : State) (t : Tid) (f : FmtI) (j : Job),
    (s.thread t).job = some j →
    let th := advance s t
    let data := j.pkt.data
    let len := data.length
    let a := ((s.thread t).reg f.a.toNat).toNat
    let n := f.imm.toNat
    let p := f.p.toNat
    let legal := isSteward t = false ∧ 1 ≤ n ∧ n ≤ 256 ∧ f.d = 0
    let off := fun (x : State) (k : Nat) => layerOffset x t k
    IssueRule (.iFins t f) s t (encI 0x31 f) legal (fun s' =>
      if len < a ∨ 511 < a ∨ j.startLen + 256 < len + n then OnlyThread s t 4 (th.setPred p false) s'
      else
        s'.thread t = (th.setData (data.take a ++ List.replicate n 0 ++ data.drop a)).setPred p true ∧
        (∀ k v, k < 16 → off s k = some v → v + 2 * n < 65535 →
          off s' k = some (if 2 * a ≤ v then v + 2 * n else v)) ∧
        (∀ k, k < 16 → off s k = none → off s' k = none) ∧ OtherThreads s t s' ∧ SameOutside s s') ∧
    IssueRule (.iFdel t f) s t (encI 0x32 f) legal (fun s' =>
      if len < a ∨ 511 < a ∨ min len 512 < a + n then OnlyThread s t 4 (th.setPred p false) s'
      else
        s'.thread t = (th.setData (data.take a ++ data.drop (a + n))).setPred p true ∧
        (∀ k v, k < 16 → off s k = some v →
          off s' k = if v < 2 * a then some v else if v < 2 * a + 2 * n then none else some (v - 2 * n)) ∧
        (∀ k, k < 16 → off s k = none → off s' k = none) ∧ OtherThreads s t s' ∧ SameOutside s s') ∧
    (∀ d, (th.setData d).pktData = d ∧ Tk.length (th.setData d).ticket = d.length % 2 ^ 32)

/-- R161 to R163. MIRR keeps a copy of the packet, marked as a mirror copy of the session, and sets P; an egress packet, or
a fifth MIRR, makes none and clears P. -/
def Obligations.MirrorCopiesOfMirr : Prop :=
  (∀ (s : State) (t : Tid) (f : FmtI) (j : Job),
    (s.thread t).job = some j → j.shadow = none →
    ThreadRule (.iMirr t f) s t (encI 0x33 f) 1 (isSteward t = false ∧ f.imm.toNat < 1024 ∧ f.d = 0 ∧ f.a = 0)
      (fun th =>
        if j.side = .egress ∨ 4 ≤ j.mirrs then th.setPred f.p.toNat false
        else
          let copies := j.copies ++ [mirrorCopy j.pkt f.imm.toNat]
          let j' := { j with mirrs := j.mirrs + 1, copies := copies }
          let th' := { th with job := some j' }
          th'.setPred f.p.toNat true)) ∧
  (∀ (p : Pkt) (n : Nat), n < 1024 →
    (mirrorCopy p n).data = p.data ∧ Tk.mirror (mirrorCopy p n).ticket = true ∧
    Tk.session (mirrorCopy p n).ticket = n ∧ Tk.dest (mirrorCopy p n).ticket = Tk.dest p.ticket ∧
    Tk.tc (mirrorCopy p n).ticket = Tk.tc p.ticket ∧ Tk.realm (mirrorCopy p n).ticket = Tk.realm p.ticket)

/-- R158 to R160. FWD and DROP end the program: the thread holds no packet, and the packet waits for release in its place
of the sequence, forwarded or as a counted program drop. -/
def Obligations.ProgramEnds : Prop :=
  ∀ (s : State) (t : Tid) (f : FmtI) (j : Job),
    (s.thread t).job = some j → j.shadow = none →
    let legal := isSteward t = false ∧ f.d = 0 ∧ f.a = 0 ∧ f.p = 0 ∧ f.imm = 0
    let o := s.obj j.side j.obj
    let drops := fun (x : State) => Sparse.get 0 x.cnt.objects (pairKey 70 (sideObj j.side j.obj))
    IssueRule (.iFwd t f) s t (encI 0x34 f) legal (fun s' =>
      s'.thread t = Thread.init ∧
      (s'.obj j.side j.obj).retired = o.retired ++ [⟨j.seq, some j.pkt.withLength, j.copies⟩]) ∧
    IssueRule (.iDrop t f) s t (encI 0x35 f) legal (fun s' =>
      s'.thread t = Thread.init ∧
      (s'.obj j.side j.obj).retired = o.retired ++ [⟨j.seq, none, j.copies⟩] ∧
      drops s' = min (drops s + 1) (2 ^ 64 - 1) ∧ s'.csr = s.csr ∧ s'.host = s.host)

/-- R92, R147 to R149, R151 and R169. LKUP, ASRCH, PMAT, MTR and XRD send their request on a channel bound as they need, with K and the
operands as they stand, a packet's PMAT and MTR numbered as they are sent; with no entry free the thread is held. -/
def Obligations.RequestsOfChannelInstructions : Prop :=
  ∀ (s : State) (t : Tid) (f : FmtC),
    let th := s.thread t
    let a := (th.reg f.a.toNat).toNat
    let b := th.reg f.b.toNat
    let ch := f.ch.toNat
    let key := (List.range th.kpos).map (keyNib th.key)
    let slot := threadSlot s t
    let bound := binding s t ch
    let used := fun (g : Job → Nat) => match th.job with
      | some j => g j
      | none => 0
    let held := th.job.isSome
    let pm := used (·.pmats)
    let mt := used (·.mtrs)
    let same := fun (k : ReqKind) (s' : State) => RequestSent s t ch k k pm mt s' ∧ SameOutside s s'
    let pmat := fun (past : Bool) => ReqKind.pmat (a % 256) (b.toNat % 2048) th.pktData slot past
    let mtr := fun (k : Nat) (past : Bool) =>
      ReqKind.mtr (a % 2 ^ 20) (b.toNat % 65536) (f.x.toNat % 2 == 1) (f.x.toNat / 2) k past
    IssueRule (.iLkup t f) s t (encC 0x48 f) (f.x = 0 ∧ f.d = 0 ∧ bound = .lookup)
      (same (.lkup (a % 1024) b key slot)) ∧
    IssueRule (.iAsrch t f) s t (encC 0x49 f) (f.b = 0 ∧ f.x = 0 ∧ f.d = 0 ∧ bound = .lookup)
      (same (.asrch (a % 256) key slot)) ∧
    IssueRule (.iPmat t f) s t (encC 0x4A f) (f.x = 0 ∧ f.d = 0 ∧ bound = .pattern)
      (fun s' => RequestSent s t ch (pmat false) (pmat (held && decide (8 ≤ pm))) (pm + 1) mt s' ∧
        SameOutside s s') ∧
    IssueRule (.iMtr t f) s t (encC 0x4B f) (f.x.toNat < 8 ∧ f.d = 0 ∧ bound = .meters)
      (fun s' => RequestSent s t ch (mtr 0 false) (mtr mt (held && decide (4 ≤ mt))) pm (mt + 1) s' ∧
        SameOutside s s') ∧
    IssueRule (.iXrd t f) s t (encC 0x64 f)
      (isSteward t = true ∧ f.d = 0 ∧ f.b = 0 ∧ f.x = 0 ∧ bound = .thread (threadNo t))
      (same (.xrd (a / 16 * 16)))

/-- R147, R261 and R378. CNTA adds one packet and B[31:0] bytes to the program counter A[23:0]; LEARN puts its event on the learn
queue of a module that learns for itself, waits for a lane to the lead on a follower, or is counted as a learn overflow. Both leave the thread at its next word. -/
def Obligations.CountAndLearnInstructions : Prop :=
  ∀ (s : State) (t : Tid) (f : FmtC),
    let th := s.thread t
    let a := (th.reg f.a.toNat).toNat
    let b := th.reg f.b.toNat
    let ch := f.ch.toNat
    (∀ j, th.job = some j → j.shadow = none) →
    let n := a % 2 ^ 24
    let add := fun (x k : Nat) => min (x + k) (2 ^ 64 - 1)
    let ev : LearnEv := ⟨a % 4096, fitKey s (a % 4096) ((List.range th.kpos).map (keyNib th.key)), th.kpos, b,
      Tk.realm th.ticket⟩
    IssueRule (.iCnta t f) s t (encC 0x4C f) (f.x = 0 ∧ f.d = 0 ∧ binding s t ch = .counters) (fun s' =>
      Sparse.get 0 s'.cnt.progPackets n = add (Sparse.get 0 s.cnt.progPackets n) 1 ∧
      Sparse.get 0 s'.cnt.progBytes n = add (Sparse.get 0 s.cnt.progBytes n) (b.toNat % 2 ^ 32) ∧
      (∀ m, m ≠ n → Sparse.get 0 s'.cnt.progPackets m = Sparse.get 0 s.cnt.progPackets m ∧
        Sparse.get 0 s'.cnt.progBytes m = Sparse.get 0 s.cnt.progBytes m) ∧
      s'.thread t = advance s t ∧ OtherThreads s t s' ∧ SameOutside s s') ∧
    IssueRule (.iLearn t f) s t (encC 0x4D f) (f.x = 0 ∧ f.d = 0 ∧ binding s t ch = .lookup) (fun s' =>
      (if s.on F.LK_LEARN_CTRL.EN 0 = true ∧ tnFollower s = true then
          s'.tn = (if tnLink s then { s.tn with tx := s.tn.tx ++ [.learn ev] } else s.tn) ∧ s'.lk = s.lk ∧ s'.cnt.events = (countSlots s t 1).cnt.events
        else if s.on F.LK_LEARN_CTRL.EN 0 = true ∧ s.lk.learnQ.length < 4096 then
          s'.lk = { s.lk with learnQ := s.lk.learnQ ++ [ev] } ∧ s'.tn = s.tn
        else s'.lk = s.lk ∧ s'.tn = s.tn ∧ Sparse.get 0 s'.cnt.events 197 = add (Sparse.get 0 s.cnt.events 197) 1) ∧
      s'.thread t = advance s t ∧ OtherThreads s t s' ∧ s'.csr = s.csr ∧ s'.host = s.host ∧ s'.out = s.out)

/-- R93, R94 and R147. SEND stores its words in a channel bound to its thread, or blocks while the channel is full; RECV pops
the oldest entry into D and g(d + 1), or blocks while there is none; RECVP never blocks and says in P whether it popped. The
channel has no thread held on it. -/
def Obligations.ThreadChannelInstructions : Prop :=
  ∀ (s : State) (t : Tid) (f : FmtC),
    let th := s.thread t
    let c := s.chan (coreOf t) f.ch.toNat
    let after := fun (x : State) => x.chan (coreOf t) f.ch.toNat
    let w0 := th.reg f.a.toNat
    let w1 := th.reg f.b.toNat
    let d := f.d.toNat
    let p := f.x.toNat
    let full := 8 ≤ c.entries.length + c.reserved.length
    c.held = [] →
    IssueRule (.iSend t f) s t (encC 0x4E f) (f.x = 0 ∧ f.d = 0 ∧ binding s t f.ch.toNat = .thread (threadNo t))
      (fun s' =>
        (¬full → c.readers = [] → (after s').entries = c.entries ++ [⟨w0, w1, 0⟩] ∧ s'.thread t = advance s t) ∧
        (∀ r rs, ¬full → c.readers = r :: rs → (after s').entries = c.entries ∧ (after s').readers = rs) ∧
        (full → (after s').entries = c.entries ∧ (after s').held = [threadNo t] ∧
          (s'.thread t).blocked = .send f.ch.toNat w0 w1) ∧ SameOutside s s') ∧
    IssueRule (.iRecv t f) s t (encC 0x4F f) (f.a = 0 ∧ f.b = 0 ∧ f.x = 0 ∧ d ≤ 30)
      (fun s' => (match c.entries with
        | e :: es => (after s').entries = es ∧ s'.thread t = ((advance s t).setReg d e.w0).setReg (d + 1) e.w1
        | [] => (after s').readers = c.readers ++ [threadNo t] ∧ (s'.thread t).blocked = .recv f.ch.toNat d) ∧
        OtherThreads s t s' ∧ SameOutside s s') ∧
    IssueRule (.iRecvp t f) s t (encC 0x50 f) (f.a = 0 ∧ f.b = 0 ∧ p < 8 ∧ d ≤ 30)
      (fun s' => (match c.entries with
        | e :: es => (after s').entries = es ∧
            s'.thread t = (((advance s t).setReg d e.w0).setReg (d + 1) e.w1).setPred p true
        | [] => (after s').entries = [] ∧ s'.thread t = (advance s t).setPred p false) ∧
        OtherThreads s t s' ∧ SameOutside s s')

/-- R90, R118 and R169 to R171. WEVT takes pending bits or blocks, and takes the active coat slot; SEVT and an event line
set a pending bit; TSTART restarts a stopped thread; RAISE raises a source of 512 to 1,023 and no other. -/
def Obligations.StewardInstructions : Prop :=
  ∀ (s : State) (t : Tid) (f : FmtA) (die core thread line : Nat),
    let th := s.thread t
    let a := th.reg f.a.toNat
    let m := th.events &&& a
    let named : Tid := .steward (a.toNat / 256 % 2) (a.toNat / 16 % 4) (a.toNat % 16)
    let u := s.thread named
    let slot := s.rd F.SY_COAT_STATUS.ACTIVE_SLOT 0
    let pc := (th.reg f.b.toNat).toNat % 65536
    let e : Tid := .steward die core thread
    ThreadRule (.iWevt t f) s t (encA 0x60 f) 1 (isSteward t = true ∧ f.b = 0 ∧ f.x = 0) (fun x =>
      if m ≠ 0 then { x.setReg f.d.toNat m with events := th.events &&& ~~~m, held := some slot }
      else { x with held := some slot, blocked := .wevt f.d.toNat a }) ∧
    IssueRule (.iSevt t f) s t (encA 0x61 f) (isSteward t = true ∧ f.d = 0 ∧ f.b = 0 ∧ f.x = 0) (fun s' =>
      s'.thread named = lineAsserted (if named = t then advance s t else u) 63 ∧
      (named ≠ t → s'.thread t = advance s t) ∧
      (∀ v : Tid, v.wf = true → v ≠ t → v ≠ named → s'.thread v = s.thread v) ∧ SameOutside s s') ∧
    IssueRule (.iTstart t f) s t (encA 0x62 f) (isSteward t = true ∧ f.d = 0 ∧ f.x.toNat < 8) (fun s' =>
      if u.run = .stopped then
        s'.thread named =
          { u with run := .running, pc := pc, blocked := .none, oldNext := none, held := some slot } ∧
        s'.thread t = (advance s t).setPred f.x.toNat true ∧ SameOutside s s'
      else OnlyThread s t 1 ((advance s t).setPred f.x.toNat false) s') ∧
    IssueRule (.iRaise t f) s t (encA 0x63 f) (isSteward t = true ∧ f.d = 0 ∧ f.b = 0 ∧ f.x = 0) (fun s' =>
      s' = if 512 ≤ a.toNat % 1024 then (issued s t 1).raise (a.toNat % 1024) else issued s t 1) ∧
    (e.wf = true → line < 64 → ∃ s', exec (.eventLineAssert die core thread line) s = .next s' ∧
        s'.thread e = lineAsserted (s.thread e) line ∧
        OtherThreads s e s' ∧ SameOutside s s' ∧ s'.cnt = s.cnt)

/-- R93, R150 to R152, R169, R174, R202, R216, R197 and R309. A reply takes its reserved entry at the end of its channel, and its request
is no longer outstanding; beyond the packet's limit it answers LIMIT, and an MTR of a strict meter REFUSED. XRD of host
memory answers the 16 bytes, but waits while a write of its thread to them does. No thread waits on the channel. -/
def Obligations.RepliesReachTheirChannel : Prop :=
  ∀ (s : State) (req : Nat) (r : Req),
    findReq s req = some r →
    let c := s.chan (coreOf r.tid) r.ch
    r.id ∈ c.reserved → c.readers = [] → c.held = [] →
    let used := opsUsed s r.uid
    let ops := if r.uid = 0 then 0 else used
    let limit := fun (n : Nat) => BitVec.ofNat 64 (1 * 2 ^ 4 + n * 2 ^ 19)
    let arrives := fun (s' : State) (w0 w1 : Word) =>
      let c' := s'.chan (coreOf r.tid) r.ch
      c'.entries = c.entries ++ [⟨w0, w1, r.uid⟩] ∧ c'.reserved = c.reserved.filter (· != r.id) ∧
      ∀ q ∈ s'.hn.reqs, q.id ≠ r.id
    (∀ seq m key slot, r.kind = .lkup seq m key slot →
      ∃ s' w0 w1, exec (.lkupReply req) s = .next s' ∧ arrives s' w0 w1 ∧
        (r.uid ≠ 0 → 24 ≤ used → w0 = limit 24 ∧ w1 = 0)) ∧
    (∀ p key slot, r.kind = .asrch p key slot →
      ∃ s' w0 w1, exec (.asrchReply req) s = .next s' ∧ arrives s' w0 w1 ∧
        (r.uid ≠ 0 → 24 ≤ used → w0 = limit 24 ∧ w1 = 0)) ∧
    (∀ set start d slot past, r.kind = .pmat set start d slot past →
      ∃ s' w0 w1, exec (.pmatReply req) s = .next s' ∧ arrives s' w0 w1 ∧
        (past = true → w0 = limit ops ∧ w1 = 0)) ∧
    (∀ n b aware col k past, r.kind = .mtr n b aware col k past → shadowOf s r = (none, none) →
      ∃ s' w0, exec (.mtrReply req) s = .next s' ∧ arrives s' w0 0 ∧
        (past = true → w0 = limit ops ∧ s'.q = s.q) ∧
        (past = false → (meterAt s n).type = 4 →
          w0 = BitVec.ofNat 64 (4 * 2 ^ 4 + ops * 2 ^ 19) ∧ s'.q = s.q)) ∧
    (∀ a, r.kind = .xrd a → a < 2 ^ 56 → s.host.busMaster % 2 = 1 → xrdBehind s r.tid a = false →
      ∃ s', exec (.xrdReply req) s = .next s' ∧ s'.host = s.host ∧
        arrives s' (BitVec.ofNat 64 (leNat (hostBytes s a 8))) (BitVec.ofNat 64 (leNat (hostBytes s (a + 8) 8)))) ∧
    (∀ a, r.kind = .xrd a → a < 2 ^ 56 → xrdBehind s r.tid a = true → exec (.xrdReply req) s = .next s)

/-- R68, R70 and R73. An arriving frame is classed; outside Shedding every frame is admitted, in Shedding one whose class
has quota left, or a class 3 frame while a lower class has; an admitted frame with room in the 4 MiB buffer joins it, and any
other is counted. -/
def Obligations.IngressAdmissionByClass : Prop :=
  ∀ (s : State) (source : Nat) (p : Pkt) (ps : List Pkt),
    Sparse.get [] s.hn.rxQueue source = p :: ps →
    let cls := admClass s source p.data
    let a := s.hn.adm
    let left := fun (c : Nat) => a.used.getD c 0 < a.quota.getD c 0
    let admits := a.shedding = false ∨ left cls ∨ (cls = 3 ∧ (left 0 ∨ left 1 ∨ left 2))
    let fits := sumOf (s.hn.dispatchBuf.map (fun f => f.2.2.data.length)) + p.data.length ≤ 4194304
    let p' : Pkt := { p with ticket := tkPut p.ticket 2 5 2 cls }
    let one := fun (s' : State) (e : Nat) =>
      Sparse.get 0 s'.cnt.events e = min (Sparse.get 0 s.cnt.events e + 1) (2 ^ 64 - 1)
    ∃ s', exec (.ingressAdmission source) s = .next s' ∧
      Sparse.get [] s'.hn.rxQueue source = ps ∧
      (∀ o, o ≠ source → Sparse.get [] s'.hn.rxQueue o = Sparse.get [] s.hn.rxQueue o) ∧
      (admits → fits → s'.hn.dispatchBuf = s.hn.dispatchBuf ++ [(source, cls, p')] ∧ s'.cnt = s.cnt) ∧
      (admits → ¬fits → s'.hn.dispatchBuf = s.hn.dispatchBuf ∧ one s' 64) ∧
      (¬admits → s'.hn.dispatchBuf = s.hn.dispatchBuf ∧ one s' 65) ∧
      SameOutside s s'

/-- R71 and R72. At the end of an epoch admission enters Shedding when the backlog reached SHED_ON, leaves it after 16 epochs
in a row that close at or below SHED_OFF, gives the next epoch's budget to the classes from 3 down, and shows its state. -/
def Obligations.AdmissionEpochSetsQuotas : Prop :=
  ∀ (s : State), s.clk.diesOn = true →
    let a := s.hn.adm
    let backlog := sumOf (s.hn.dispatchBuf.map (fun f => f.2.2.data.length))
    let on := s.rd F.HN_ADM_CTRL.SHED_ON 0 * 1024
    let off := s.rd F.HN_ADM_CTRL.SHED_OFF 0 * 1024
    let budget := a.taken - (backlog - off) / 16
    let arrived := fun (c : Nat) => a.arrived.getD c 0
    ∃ s', exec .admissionEpochEnd s = .next s' ∧
      (let a' := s'.hn.adm; a'.epoch = a.epoch + 1 ∧ a'.taken = 0 ∧ a'.used = [0, 0, 0, 0] ∧
        (a.shedding = false → (a'.shedding = true ↔ on ≤ max a.peak backlog)) ∧
        (a.shedding = true → (a'.shedding = false ↔ backlog ≤ off ∧ 15 ≤ a.calm)) ∧
        (a'.shedding = true →
          (∀ c, c < 4 → a'.quota.getD c 0 ≤ arrived c) ∧ sumOf a'.quota ≤ budget ∧
          a'.quota.getD 3 0 = min (arrived 3) budget ∧
          (sumOf a.arrived ≤ budget → a.arrived.length = 4 → a'.quota = a.arrived)) ∧
        (s'.rd F.HN_ADM_CTRL.SHEDDING 0 = if a'.shedding then 1 else 0)) ∧
      s'.clk.ns = max s.clk.ns ((a.epoch + 1) * 1024) ∧ s'.host = s.host ∧ s'.pending = s.pending

/-- R76, R78, R80 and R106. The dispatcher gives the oldest frame of a source or destination to the slice at its pointer,
numbers it and moves the pointer; the reorder unit releases the retired packet next in sequence, and then its copies. -/
def Obligations.DispatchAndReleaseInSequence : Prop :=
  ∀ (s : State) (side : Side) (obj : Nat),
    let o := s.obj side obj
    let gen := s.rd F.SY_COAT_STATUS.GENERATION 0
    (∀ (p : Pkt) (sp : State) (n : Nat),
      takeFrame s side obj = some (p, sp) → positionSlice s (o.pointer % 16) = some n → sliceRoom s n = true →
      shadowSlices s = [] → gen ≠ 0 → o.inflight < s.rd F.HN_DISP_CTRL.INFLIGHT_MAX 0 →
      ¬(side = .egress ∧ obj < 160 ∧ objServes s obj = false) →
      ∃ s' j, exec (.dispatch side obj) s = .next s' ∧
        (s'.slice n).queue = (s.slice n).queue ++ [j] ∧
        j.side = side ∧ j.obj = obj ∧ j.seq = o.nextSeq ∧ j.slot = s.rd F.SY_COAT_STATUS.ACTIVE_SLOT 0 ∧
        j.gen = gen ∧ j.pkt.data = p.data ∧ j.record = none ∧
        s'.obj side obj =
          { o with pointer := (o.pointer % 16 + 1) % 16, nextSeq := (o.nextSeq + 1) % 65536, inflight := o.inflight + 1 } ∧
        SameOutside s s') ∧
    (∀ pre r post, o.retired = pre ++ r :: post → r.seq = o.nextRelease → (∀ x ∈ pre, x.seq ≠ o.nextRelease) →
      ∃ s', exec (.reorderRelease side obj) s = .next s' ∧
        s'.obj side obj =
          { o with retired := pre ++ post, nextRelease := (o.nextRelease + 1) % 65536, inflight := o.inflight - 1 } ∧
        (side = .ingress → s'.hn.dieLink = s.hn.dieLink ++ (r.out.toList ++ r.copies)) ∧
        (side = .egress → Sparse.get [] s'.hn.macQueue obj =
          Sparse.get [] s.hn.macQueue obj ++ (r.out.toList ++ r.copies)) ∧
        SameOutside s s' ∧ s'.cnt = s.cnt)

/-- R86, R100, R188, R189 and R192. The walk writes the next packet's 64-byte parse record; a free thread takes a walked packet at its
coat's entry, or a faulted one at the fault-handler entry, with g1, g2, K and the parse record as they are to be. -/
def Obligations.SlicesWalkAndStartPackets : Prop :=
  ∀ (s : State) (n : Nat),
    let sl := s.slice n
    (∀ pre j post, sl.queue = pre ++ j :: post → (∀ x ∈ pre, x.record.isSome) → j.record = none →
      ∃ s' rec, exec (.parseWalk n) s = .next s' ∧ rec.length = 64 ∧
        rec = parseRecord (parseGraph (coatOf s j.slot) j.side j.obj j.pkt.data) ∧
        s'.slice n = { sl with queue := pre ++ { j with record := some rec } :: post } ∧ SameOutside s s') ∧
    (∀ j js rec c t, n < 17 → c < 24 → t < 8 → j.record = some rec → freeThread s n = some (c, t) →
      let tid : Tid := .packet n c t
      let started := fun (s' : State) (entry g1 : Nat) (startLen : Nat) =>
        let th := s'.thread tid
        th.pc = entry % 131072 ∧ th.reg 1 = BitVec.ofNat 64 g1 ∧ th.reg 2 = BitVec.ofNat 64 j.obj ∧
        (∀ k, 2 < k → th.reg k = 0) ∧ th.preds = 0 ∧ th.key = 0 ∧ th.kpos = 0 ∧ th.blocked = .none ∧
        th.job = some { j with
          startLen := startLen, takenAt := s.clk.ns, watchdogUs := s.rd F.HN_DISP_CTRL.WATCHDOG_US 0 } ∧
        (∀ i, i < min 64 rec.length → lmemByte s' (coreOf tid) (t * 8192 + i) = rec.getD i 0) ∧
        OtherThreads s tid s' ∧ SameOutside s s'
      (sl.handlers = [] → sl.queue = j :: js →
        ∃ s', exec (.threadTakePacket n) s = .next s' ∧ (s'.slice n).queue = js ∧
          started s' (if j.side = .ingress then (coatOf s j.slot).ingressEntry else (coatOf s j.slot).egressEntry)
            j.pkt.data.length j.pkt.data.length) ∧
      (sl.handlers = j :: js →
        ∃ s', exec (.faultHandlerStart n) s = .next s' ∧ (s'.slice n).handlers = js ∧
          started s' (coatOf s j.slot).faultEntry j.faultCode j.startLen))

/-- R98 to R103. When its watchdog period has passed a packet thread faults with code 4: its fault record stands at NEXT of
its die's ring and shows the word it fetched last, or the instruction it waits in, NEXT and TOTAL move, the thread holds no packet, and line 0 of the die's supervisor thread is asserted. -/
def Obligations.WatchdogFaultsAThread : Prop :=
  ∀ (s : State) (slice core k : Nat) (j : Job),
    let t : Tid := .packet slice core k
    t.wf = true → (s.thread t).job = some j →
    let next := s.rd F.HN_FAULT_HEAD.NEXT 0
    let total := s.rd F.HN_FAULT_HEAD.TOTAL 0
    let sup : Tid := .steward 0 0 0
    let th := s.thread t
    let was := if th.blocked = .none then (th.pc, (fetchWord s t).1) else th.instr
    ∃ s' rec, exec (.watchdogExpiry t) s = .next s' ∧
      s'.clk.ns = (if s.clk.diesOn then max s.clk.ns (j.takenAt + j.watchdogUs * 1000) else s.clk.ns) ∧
      Sparse.get [] s'.hn.faultRecs (pairKey 0 next) = rec ∧ rec.length = 64 ∧
      rec.take 2 = [4, 0] ∧ (rec.drop 4).take 3 = [BitVec.ofNat 8 slice, BitVec.ofNat 8 core, BitVec.ofNat 8 k] ∧
      (rec.drop 8).take 8 = leBytes 4 was.1 ++ leBytes 4 was.2.toNat ∧
      s'.rd F.HN_FAULT_HEAD.NEXT 0 = (next + 1) % 1024 ∧
      s'.rd F.HN_FAULT_HEAD.TOTAL 0 = min (total + 1) (2 ^ 32 - 1) ∧
      s'.thread t = Thread.init ∧ s'.thread sup = lineAsserted (s.thread sup) 0 ∧ s'.host = s.host

/-- (R594 and the block's form.) A step takes the command at the front of the queue and is that command's effect on the
state with the rest of the queue; with an empty queue every lane sends what is next for it and 1 ns passes (the model's own
choice, log entry 3). -/
def Obligations.StepTakesFrontCommand : Prop :=
  (∀ (c : Instr) (s : State), step { s with pending := c :: s.pending } = exec c s) ∧
  (∀ s : State, s.pending = [] → ∃ s', step s = .next s' ∧ s' = elapse (transmit s) 1 ∧ s'.pending = [] ∧
    s'.clk.lath = s.clk.lath + 1 ∧ s'.clk.ns = s.clk.ns + (if s.clk.diesOn then 1 else 0) ∧
    (s.fb.tx = [] → s.tn.tx = [] → s' = elapse s 1))

/-- Every command of the module answers a next state, whatever the state and the operands; none of them faults or
refuses, and none changes the queue of waiting commands. -/
def Obligations.EveryCommandCompletesAndKeepsTheQueue : Prop :=
  ∀ (c : Instr) (s : State), ∃ s', exec c s = .next s' ∧ s'.pending = s.pending

/-- The stores of bytes and of registers are in their canonical form: addresses rise, and no entry equals what an
unlisted address reads as. -/
def Obligations.EveryStepKeepsStoresCanonical : Prop :=
  ∀ s s' : State,
    (Sparse.wf (0 : Byte) s.host.mem = true ∧ Sparse.wf (0 : Byte) s.hb.mem = true ∧
      Sparse.wf (0 : Byte) s.hn.lmem = true ∧ Sparse.rising s.csr = true ∧ Sparse.rising s.lk.slots = true ∧
      Sparse.rising s.lk.routes = true) →
    step s = .next s' →
    Sparse.wf (0 : Byte) s'.host.mem = true ∧ Sparse.wf (0 : Byte) s'.hb.mem = true ∧
      Sparse.wf (0 : Byte) s'.hn.lmem = true ∧ Sparse.rising s'.csr = true ∧ Sparse.rising s'.lk.slots = true ∧
      Sparse.rising s'.lk.routes = true

/-- R51, R54, R75, R110, R548, R553, R576, R594. After reset nothing waits, the dies are in reset, the endpoint is in
reset, no coat is loaded, no slice is in the active list, every register reads as its reset value, every memory reads 0,
and the stores are canonical. -/
def Obligations.ResetLeavesEverythingAtItsResetValue : Prop :=
  let s := State.reset
  s.pending = [] ∧ s.out = [] ∧ s.clk.diesOn = false ∧ s.host.endpoint = .inReset ∧ s.lt.running = false ∧
  (∀ r i w, s.word r i w = resetWord r i w) ∧
  (∀ a, Sparse.get (0 : Byte) s.host.mem a = 0) ∧ (∀ k, Sparse.get (0 : Byte) s.hb.mem k = 0) ∧
  (∀ c a, lmemByte s c a = 0) ∧ (∀ t, s.thread t = Thread.init) ∧
  s.coat.slotA = Coat.empty ∧ s.coat.slotB = Coat.empty ∧
  s.rd F.SY_COAT_STATUS.GENERATION 0 = 0 ∧ s.rd F.SY_COAT_STATUS.STATE 0 = 0 ∧
  s.rd F.SY_HALLMARK.ACTIVE 0 = 3 ∧ s.rd F.SY_HALLMARK.PIN 0 = 3 ∧ s.rd F.SY_HALLMARK.NATIVE 0 = 3 ∧
  s.rd F.SY_IMAGE_STATUS.STATE 0 = 0 ∧ s.rd F.SY_IMAGE_STATUS.SERVICE_READY 0 = 0 ∧
  s.rd F.SY_REALM_CTRL.ENABLE 0 = 1 ∧ s.rd F.SY_REALM_CTRL.RINGS 0 = 16 ∧ s.rd F.SY_REALM_CTRL.ENABLE 1 = 0 ∧
  (∀ src, src < 1024 → (s.on F.SY_INT_ROUTE.EN src = true ↔ src < 6 ∨ (16 ≤ src ∧ src < 160) ∨ 512 ≤ src)) ∧
  Sparse.wf (0 : Byte) s.host.mem = true ∧ Sparse.wf (0 : Byte) s.hb.mem = true ∧
  Sparse.wf (0 : Byte) s.hn.lmem = true ∧ Sparse.rising s.csr = true ∧ Sparse.rising s.lk.slots = true ∧
  Sparse.rising s.lk.routes = true

/-- R32 to R34. Each word of each register instance has an offset of its own in BAR0, and what stands at that offset, in
a realm's view, is that word of the instance that the realm's view gives. -/
def Obligations.RegisterMapIsOneToOne : Prop :=
  (∀ (realm i w : Nat) (r : Reg), realm < 64 → RegOk r i w →
    placeAt realm (regOffset r i w) = some (.reg r (regInst r realm i) w, 0)) ∧
  (∀ (r r' : Reg) (i i' w w' : Nat), RegOk r i w → RegOk r' i' w' → regOffset r i w = regOffset r' i' w' →
    r = r' ∧ i = i' ∧ w = w') ∧
  (∀ (r : Reg) (i w : Nat), RegOk r i w → regOffset r i w < 2 ^ 26)

/-- R36, R39 and R40. A register write stores each field by its access code and its clamp: RW fields take the written
bits, or the nearest legal value; RWO fields take them from the owner alone; W1C fields lose the bits written 1; RO
fields and reserved bits stay. Other registers and the rest of the module stay, and a write by a function or a steward
thread counts event 1,232. -/
def Obligations.RegisterWritesFollowAccessCodes : Prop :=
  ∀ (s : State) (a : Agent) (r : Reg) (i w : Nat) (v : Word),
    Reaches s a r i w → plainReg r = true →
    let n := regInst r (agentRealm a) i
    let wide := (regDesc r).bits ≠ 32
    ∃ s', exec (.registerWrite (.csr a (regOffset r i w) (if wide then .w64 else .w32) v)) s = .next s' ∧
      (∀ f ∈ (regDesc r).fields, f.lo / 64 = w → f.lo % 64 + f.len ≤ 64 →
        let id : FId := ⟨r, f.lo, f.len⟩
        let given := bitsOf v.toNat (f.lo % 64) f.len
        (f.access = .rw ∨ (f.access = .rwo ∧ privOf s a = .owner) →
          (f.clamp = .keep → s'.rd id n = given) ∧
          (∀ lo hi, f.clamp = .range lo hi → s'.rd id n = clampRange lo hi given) ∧
          (∀ lo hi d, f.clamp = .into lo hi d → s'.rd id n = if lo ≤ given ∧ given ≤ hi then d else given)) ∧
        (f.clamp = .keep → f.access = .w1c → s'.rd id n = s.rd id n ^^^ (s.rd id n &&& given)) ∧
        (f.clamp = .keep → f.access = .wo → s'.rd id n = 0) ∧
        (f.clamp = .keep → f.access = .ro ∨ f.access = .rsv ∨ (f.access = .rwo ∧ privOf s a ≠ .owner) →
          s'.rd id n = s.rd id n)) ∧
      OtherRegisters s s' (fun r' i' => r' = r ∧ i' = n) ∧ AccessOnly s s' ∧
      Sparse.get 0 s'.cnt.events 1232 =
        (match a with
          | .smbus => Sparse.get 0 s.cnt.events 1232
          | .startWrite => Sparse.get 0 s.cnt.events 1232
          | _ => min (Sparse.get 0 s.cnt.events 1232 + 1) (2 ^ 64 - 1))

/-- R30, R38, R45, R50, R57, R65 and R595. Clearing a realm's ENABLE disables and stops its sixteen rings; enabling a command ring, or a
punt ring, sets its HEAD to TAIL; the hallmark pin stores its clamped value; Bus Master Enable is set, and completions
that waited for it are made, or cleared; the VF count and a function's MSI-X controls are set, and its messages that were
held back and may now go are sent. -/
def Obligations.EnablesAndFunctionControls : Prop :=
  (∀ (s : State) (a : Agent) (n : Nat), Reaches s a .SY_REALM_CTRL n 0 → n ≠ 0 → s.rd F.SY_REALM_CTRL.ENABLE n = 1 →
    ∃ s', exec (.realmDisable a n) s = .next s' ∧ s'.rd F.SY_REALM_CTRL.ENABLE n = 0 ∧ realmExists s' n = false ∧
      ∀ k, k < 16 → s'.rd F.SY_RING_BASE.ENABLE (ringNo n k) = 0 ∧ ringAt s' n k = RingSt.init) ∧
  (∀ (s : State) (fn k : Nat) (v : Word), Reaches s (.fn fn) .SY_RING_BASE k 0 →
    let n := ringNo fn k
    s.rd F.SY_RING_BASE.ENABLE n = 0 →
    ∃ s', exec (.ringEnable fn k v) s = .next s' ∧ AccessOnly s s' ∧
      s'.rd F.SY_RING_BASE.LOG2_ENTRIES n = clampRange 4 16 (bitsOf v.toNat 0 5) ∧
      s'.rd F.SY_RING_BASE.IRQ n = bitsOf v.toNat 9 1 ∧ s'.rd F.SY_RING_BASE.BASE n = bitsOf v.toNat 12 52 ∧
      (k < s.rd F.SY_REALM_CTRL.RINGS fn →
        s'.rd F.SY_RING_BASE.ENABLE n = 1 ∧ s'.rd F.SY_RING_PTRS.HEAD n = s'.rd F.SY_RING_PTRS.TAIL n) ∧
      (s.rd F.SY_REALM_CTRL.RINGS fn ≤ k → s'.rd F.SY_RING_BASE.ENABLE n = 0)) ∧
  (∀ (s : State) (fn : Nat) (v : Word), Reaches s (.fn fn) .SY_PUNT_BASE 0 0 → s.rd F.SY_PUNT_BASE.ENABLE fn = 0 →
    ∃ s', exec (.puntRingEnable fn v) s = .next s' ∧ AccessOnly s s' ∧ s'.rd F.SY_PUNT_BASE.ENABLE fn = 1 ∧
      s'.rd F.SY_PUNT_BASE.LOG2_ENTRIES fn = clampRange 4 16 (bitsOf v.toNat 0 5) ∧
      s'.rd F.SY_PUNT_BASE.BUF_LOG2 fn = clampRange 11 15 (bitsOf v.toNat 12 4) ∧
      s'.rd F.SY_PUNT_BASE.BASE fn = bitsOf v.toNat 16 48 ∧
      s'.rd F.SY_PUNT_PTRS.HEAD fn = s'.rd F.SY_PUNT_PTRS.TAIL fn) ∧
  (∀ (s : State) (a : Agent) (pin : Nat), Reaches s a .SY_HALLMARK 0 0 →
    ∃ s', exec (.hallmarkPinWrite a pin) s = .next s' ∧ AccessOnly s s' ∧
      OtherRegisters s s' (fun r _ => r = .SY_HALLMARK) ∧ s'.rd F.SY_HALLMARK.PIN 0 = clampRange 1 3 (pin % 16) ∧
      s'.rd F.SY_HALLMARK.ACTIVE 0 = s.rd F.SY_HALLMARK.ACTIVE 0) ∧
  (∀ (s : State) (fn : Nat), fn < 64 → s.host.endpoint = .ready →
    (∃ s', exec (.busMasterEnableClear fn) s = .next s' ∧ busMaster s' fn = false ∧
      (∀ f, f ≠ fn → busMaster s' f = busMaster s f) ∧
      { s' with host := { s'.host with busMaster := s.host.busMaster } } = s) ∧
    (s.coat.waits = [] → (∀ k addr d b, k < 16 → (ringAt s fn k).run ≠ .waiting addr d b) →
      ∃ s', exec (.busMasterEnableSet fn) s = .next s' ∧ busMaster s' fn = true ∧
        (∀ f, f ≠ fn → busMaster s' f = busMaster s f) ∧ s'.csr = s.csr ∧
        (∀ k ws, k < 16 → (ringAt s fn k).run = .writeback ws → (ringAt s' fn k).run = .idle)) ∧
    (∀ n, ∃ s', exec (.registerWrite (.numVfs n)) s = .next s' ∧ s'.host.numVfs = min n 63 ∧
      { s' with out := s.out, host := { s'.host with
        numVfs := s.host.numVfs, msixPending := s.host.msixPending } } = s ∧
      ∀ f v, f < 64 → v < vectorsOf f → Sparse.get false s.host.msixPending (pairKey f v) = true →
        msixOpen s' f v = true →
        Sparse.get false s'.host.msixPending (pairKey f v) = false ∧ Out.msix f v ∈ s'.out) ∧
    (∀ en mask, ∃ s', exec (.registerWrite (.msixControl fn en mask)) s = .next s' ∧
      bitAt s'.host.msixEnable fn = en ∧ bitAt s'.host.msixFnMask fn = mask ∧ s'.csr = s.csr ∧
      ∀ v, v < vectorsOf fn → Sparse.get false s.host.msixPending (pairKey fn v) = true → msixOpen s' fn v = true →
        Sparse.get false s'.host.msixPending (pairKey fn v) = false ∧ Out.msix fn v ∈ s'.out))

/-- R31, R35, R36, R39, R55, R423, R486 and R593. A read gives the agent the register's bits and changes no register; the
32-bit read of a low half keeps the high half for the agent's next read of it; a read of PT_TS_FIFO's low word also removes
the oldest timestamp, whose time its high word then holds. A BAR2 read gives the staged coat's bytes, waits while a recoat
runs, and is 0 and counted where nothing is mapped or before SERVICE_READY; a BAR4 read gives the Fresco directory's bytes. -/
def Obligations.RegisterReadsAndReadClears : Prop :=
  ∀ (s : State) (a : Agent), a.wf = true → canAccess s a = true → hostBehind s a = false →
    (∀ (r : Reg) (i w : Nat), RegOk r i w → (regDesc r).bits ≠ 32 → r ≠ .PT_TS_FIFO →
      reachable s a (regOffset r i w) (.reg r (regInst r (agentRealm a) i) w) = true →
      ∃ s', exec (.rcRead (.csr a (regOffset r i w) .w64)) s = .next s' ∧
        s'.out = s.out ++
          [.readData a (regOffset r i w) (BitVec.ofNat 64 (shownWord s r (regInst r (agentRealm a) i) w))] ∧
        { s' with out := s.out, cnt := s.cnt } = s) ∧
    (∀ (r : Reg) (i : Nat), RegOk r i 0 → (regDesc r).bits = 32 →
      reachable s a (regOffset r i 0) (.reg r (regInst r (agentRealm a) i) 0) = true →
      ∃ s', exec (.rcRead (.csr a (regOffset r i 0) .w32)) s = .next s' ∧
        s'.out = s.out ++ [.readData a (regOffset r i 0)
          (BitVec.ofNat 64 (shownWord s r (regInst r (agentRealm a) i) 0 % 2 ^ 32))] ∧
        { s' with out := s.out, cnt := s.cnt } = s) ∧
    (∀ (r : Reg) (i w fn : Nat), a = .fn fn → RegOk r i w → (regDesc r).bits ≠ 32 → r ≠ .PT_TS_FIFO →
      let o := regOffset r i w
      let n := regInst r fn i
      reachable s a o (.reg r n w) = true →
      let value := shownWord s r n w
      ∃ s', exec (.rcRead (.csr a o .w32)) s = .next s' ∧
        s'.out = s.out ++ [.readData a o (BitVec.ofNat 64 (value % 2 ^ 32))] ∧
        { s' with out := s.out, cnt := s.cnt, host := { s'.host with latched := s.host.latched } } = s ∧
        ∀ later : State, Sparse.get none later.host.latched fn = Sparse.get none s'.host.latched fn →
          canAccess later a = true → hostBehind later a = false → reachable later a (o + 4) (.reg r n w) = true →
          ∃ s2, exec (.rcRead (.csr a (o + 4) .w32)) later = .next s2 ∧
            s2.out = later.out ++ [.readData a (o + 4) (BitVec.ofNat 64 (value / 2 ^ 32 % 2 ^ 32))] ∧
            Sparse.get none s2.host.latched fn = none) ∧
    (∀ p, p < 32 → reachable s a (regOffset .PT_TS_FIFO p 0) (.reg .PT_TS_FIFO p 0) = true →
      (∀ tag time rest, Sparse.get [] s.pt.tsQ p = (tag, time) :: rest → time < 2 ^ 64 →
        ∃ s', exec (.tsFifoRead a p) s = .next s' ∧ exec (.rcRead (.csr a (regOffset .PT_TS_FIFO p 0) .w64)) s = .next s' ∧
          s'.out = s.out ++ [.readData a (regOffset .PT_TS_FIFO p 0) (BitVec.ofNat 64 (1 + tag * 2 ^ 16))] ∧
          Sparse.get [] s'.pt.tsQ p = rest ∧ s'.rd F.PT_TS_FIFO.TIME p = time ∧
          OtherRegisters s s' (fun r _ => r = .PT_TS_FIFO) ∧
          { s' with out := s.out, cnt := s.cnt, csr := s.csr, pt := { s'.pt with tsQ := s.pt.tsQ } } = s) ∧
      (Sparse.get [] s.pt.tsQ p = [] →
        ∃ s', exec (.tsFifoRead a p) s = .next s' ∧
          s'.out = s.out ++ [.readData a (regOffset .PT_TS_FIFO p 0) 0] ∧
          { s' with out := s.out, cnt := s.cnt } = s)) ∧
    (∀ (o : Nat) (w : Width), a = .fn 0 → o % w.bytes = 0 →
      let answered := fun (k : Nat) (s' : State) => s'.out = s.out ++ [.barData k o (BitVec.ofNat 64 0)] ∧
        s'.rd F.SY_REFUSED_ACCESS.COUNT 0 = min (s.rd F.SY_REFUSED_ACCESS.COUNT 0 + 1) (2 ^ 64 - 1) ∧
        OtherRegisters s s' (fun r _ => r = .SY_REFUSED_ACCESS) ∧ { s' with out := s.out, csr := s.csr } = s
      (o < 2 ^ 30 → recoating s = true → exec (.rcRead (.bar2 o w)) s = .next (addWait s (.bar2Read o w))) ∧
      (o < 2 ^ 30 → recoating s = false →
        s.on F.SY_IMAGE_STATUS.SERVICE_READY 0 = false ∨ bar2At s (o / 8 * 8) = none →
        ∃ s', exec (.rcRead (.bar2 o w)) s = .next s' ∧ answered 2 s') ∧
      (∀ x, o < 2 ^ 30 → recoating s = false → s.on F.SY_IMAGE_STATUS.SERVICE_READY 0 = true →
        bar2At s (o / 8 * 8) = some x →
        exec (.rcRead (.bar2 o w)) s =
          .next (s.emit (.barData 2 o (BitVec.ofNat 64 (bitsOf (bar2Word s x) (o % 8 * 8) (8 * w.bytes)))))) ∧
      (o < 2 ^ 28 → exec (.rcRead (.bar4 o w)) s = .next (s.emit (.barData 4 o (BitVec.ofNat 64
        (leNat ((List.range w.bytes).map (fun i => dirByte s (o + i)))))))))

/-- R37, R49, R57 to R60, R63, R170 and R564. A ring's serving thread takes the descriptor at HEAD, moves HEAD on, does what
the opcode says, and writes the parameters and the status back: NOP and opcodes outside the function's level complete DONE;
CSR_READ writes back what it read and CSR_WRITE what then stands; COUNTER_SNAPSHOT copies its counters; SIGNAL_EVENT
asserts line 63. A command that the function may not issue completes REFUSED. A coalesced message follows DELAY_US after
its first completion. -/
def Obligations.RingCommandsComplete : Prop :=
  (∀ (s : State) (fn k : Nat) (d : List Byte), RingTakes s fn k d →
    let t := ringTaken s fn k []
    let refused := refusalStatus s fn 0x20
    let wide := csrCmdWidth d
    let o := csrCmdOffset d
    let inWindow := fn = 0 ∨ o < 0x100000
    (ringOp s fn d = 0 →
      ∃ s', exec (.nop fn k) s = .next s' ∧ HeadMoved s fn k s' ∧ RingDone s fn k d 1 [] s' ∧
        (∀ x, (∀ i, i < 4 → x ≠ (headAddr s fn k + i) % 2 ^ 64) →
          Sparse.get (0 : Byte) s'.host.mem x = Sparse.get 0 s.host.mem x) ∧
        OtherRegisters s s' (fun r i => r = .SY_RING_PTRS ∧ i = ringNo fn k) ∧
        { s' with csr := s.csr, cnt := s.cnt, host := s.host, out := s.out } = s) ∧
    (ringOp s fn d = 1 → inWindow →
      ∃ s', exec (.csrRead fn k) s = .next s' ∧ HeadMoved s fn k s' ∧
        RingDone s fn k d 1 [(16, leBytes 8 (csrRead t (.fn fn) o (widthOf wide)).2)] s') ∧
    (ringOp s fn d = 1 → ¬inWindow →
      ∃ s', exec (.csrRead fn k) s = .next s' ∧ HeadMoved s fn k s' ∧
        (ownedPlace t fn o = none → RingDone s fn k d refused [] s') ∧
        (∀ p b, ownedPlace t fn o = some (p, b) →
          let value := (if wide = 8 then readWhole t (.fn fn) p else readHalf t (.fn fn) o b p).2
          RingDone s fn k d 1 [(16, leBytes 8 value)] s')) ∧
    (ringOp s fn d = 2 → ¬inWindow → privOf s (.fn fn) ≠ .observer →
      ∃ s', exec (.csrWrite fn k) s = .next s' ∧ HeadMoved s fn k s' ∧
        (ownedPlace t fn o = none → RingDone s fn k d refused [] s') ∧
        (∀ p b, ownedPlace t fn o = some (p, b) →
          RingDone s fn k d 1 [(16, leBytes 8 (peekCsr (countAccess (ownedWrite t fn o wide (leAt d 16 wide) p b)
            (.fn fn) o) fn o wide))] s')) ∧
    (ringOp s fn d = 2 → inWindow → privOf s (.fn fn) ≠ .observer →
      let u := csrWrite t (.fn fn) o (widthOf wide) (leAt d 16 wide)
      (ringAt u fn k).run = .waiting (headAddr s fn k) d [] → abiLevel u fn = abiLevel s fn → busMaster u fn = true →
      ∃ s', exec (.csrWrite fn k) s = .next s' ∧
        RingDone s fn k d 1 [(16, leBytes 8 (peekCsr u fn o wide))] s' ∧ s'.csr = u.csr) ∧
    (ringOp s fn d = 2 → privOf s (.fn fn) = .observer →
      ∃ s', exec (.csrWrite fn k) s = .next s' ∧ HeadMoved s fn k s' ∧ RingDone s fn k d refused [] s' ∧
        OtherRegisters s s' (fun r i => r = .SY_RING_PTRS ∧ i = ringNo fn k)) ∧
    (ringOp s fn d = 0x30 →
      let src := if 3 < leAt d 8 1 then 0 else leAt d 8 1
      let realm := if fn = 0 then leAt d 9 1 % 64 else fn
      let event := min (leAt d 10 2) 1279
      let first := leAt d 12 4
      let copied := min (clampRange 1 65536 (leAt d 16 4)) (snapCount src event - first)
      let size := if src = 3 then 16 else 8
      let dest := leAt d 24 8 / 8 * 8
      (fn ≠ 0 → src ≠ 1 →
        ∃ s', exec (.counterSnapshot fn k) s = .next s' ∧ RingDone s fn k d refused [] s') ∧
      (fn = 0 ∨ src = 1 → dest + size * copied ≤ headAddr s fn k → headAddr s fn k + 64 ≤ 2 ^ 64 →
        ∃ s', exec (.counterSnapshot fn k) s = .next s' ∧ HeadMoved s fn k s' ∧
          RingDone s fn k d 1 [(32, leBytes 8 (ptpTime s)), (40, leBytes 4 copied)] s' ∧
          ∀ j, j < copied → hostBytes s' (dest + size * j) size = snapBytes t src realm event (first + j))) ∧
    (ringOp s fn d = 0x50 →
      let th : Tid := .steward (bitsOf (leAt d 8 2) 8 1) (bitsOf (leAt d 8 2) 4 2) (bitsOf (leAt d 8 2) 0 4)
      (privOf s (.fn fn) = .owner →
        ∃ s', exec (.signalEvent fn k) s = .next s' ∧ HeadMoved s fn k s' ∧ RingDone s fn k d 1 [] s' ∧
          s'.thread th = lineAsserted (s.thread th) 63 ∧ OtherThreads s th s' ∧
          { s' with csr := s.csr, cnt := s.cnt, host := s.host, out := s.out,
                    hn := { s'.hn with threads := s.hn.threads } } = s) ∧
      (privOf s (.fn fn) ≠ .owner →
        ∃ s', exec (.signalEvent fn k) s = .next s' ∧ RingDone s fn k d refused [] s' ∧ s'.hn = s.hn))) ∧
  (∀ (s : State) (fn k at_ : Nat), fn < 64 → k < 16 → (ringAt s fn k).firstAt = some at_ → 3 ≤ abiLevel s fn →
    s.on F.SY_RING_BASE.IRQ (ringNo fn k) = true → s.rd F.SY_RING_COAL.DELAY_US (ringNo fn k) ≠ 0 →
    s.host.endpoint ≠ .inReset →
    ∃ s', exec (.ringCoalTimeout fn k) s = .next s' ∧ (ringAt s' fn k).sinceMsg = 0 ∧ (ringAt s' fn k).firstAt = none ∧
      (s.clk.diesOn = true →
        s'.clk.ns = max s.clk.ns (at_ + s.rd F.SY_RING_COAL.DELAY_US (ringNo fn k) * 1000)) ∧
      (fn ≠ 0 → msixOpen s fn k = true → s'.out = s.out ++ [.msix fn k]) ∧
      (fn = 0 → s.on F.SY_INT_ROUTE.EN (144 + k) = true → s.rd F.SY_INT_ROUTE.REALM (144 + k) = 0 →
        msixOpen s 0 (s.rd F.SY_INT_ROUTE.VECTOR (144 + k)) = true →
        s'.out = s.out ++ [.msix 0 (s.rd F.SY_INT_ROUTE.VECTOR (144 + k))]) ∧
      s'.csr = s.csr ∧ s'.host.mem = s.host.mem)

/-- R53, R54, R55, R110, R111, R177, R552 and R593. IMAGE_STAGE refuses an image whose header fails, and otherwise loads its
sections into the staged coat, or stops at the first that fails; RECOAT is accepted when an image is staged, the
generation is the one named and no recoat runs; the flip makes the staged slot the active one and adds 1 to the
generation, and steward threads that hold no slot start at its start words; at D the other slot becomes the staged one, the RECOAT completes and the waiting accesses are served in order, those that still wait
for something else waiting on; a BAR2 write changes the staged coat, waits while a recoat runs, and is refused where nothing is mapped. -/
def Obligations.ImagesAndRecoats : Prop :=
  (∀ (s : State) (fn k : Nat) (d : List Byte) (binds : List BindDecl), RingTakes s fn k d → ringOp s fn d = 0x20 →
    let t := ringTaken s fn k binds
    let len := clampRange 64 imageMax (leAt d 16 4)
    let read := t.hostRead fn serveMaster (leAt d 8 8 / 64 * 64) len
    let img := read.1
    let standing := bitAt (ringFlags s fn d) 1
    let holdover := bitAt (ringFlags s fn d) 2
    let done := fun (s' : State) => RingDone s fn k d 1 [(24, leBytes 4 (s'.word .SY_IMAGE_STATUS 0 0).toNat)] s'
    (privOf s (.fn fn) ≠ .owner →
      ∃ s', exec (.imageStage fn k binds) s = .next s' ∧ RingDone s fn k d (refusalStatus s fn 0x20) [] s' ∧
        s'.coat = s.coat) ∧
    (privOf s (.fn fn) = .owner → recoating s = false → stagedHeld s = false →
      (∀ st, headerCheck s img len = some st →
        ∃ s', exec (.imageStage fn k binds) s = .next s' ∧ done s' ∧ s'.rd F.SY_IMAGE_STATUS.STATE 0 = st ∧
          s'.rd F.SY_IMAGE_STATUS.SECTION 0 = 0 ∧ s'.coat = s.coat ∧ s'.lk = s.lk) ∧
      (headerCheck s img len = none → standing = true → storeFits s holdover len = false →
        ∃ s', exec (.imageStage fn k binds) s = .next s' ∧ RingDone s fn k d (refusalStatus s fn 0x23) [] s' ∧
          s'.coat = s.coat ∧ s'.lk = s.lk) ∧
      (headerCheck s img len = none → (standing = true → storeFits s holdover len = true) →
        let u := loadImage (setImage read.2 1 1) img binds
        (∀ sec, u.2 = some sec → sec < 256 →
          ∃ s', exec (.imageStage fn k binds) s = .next s' ∧ s'.rd F.SY_IMAGE_STATUS.STATE 0 = 5 ∧
            s'.rd F.SY_IMAGE_STATUS.SECTION 0 = sec ∧ s'.coat = u.1.coat ∧ s'.lk = u.1.lk ∧ s'.lt = u.1.lt) ∧
        (u.2 = none →
          ∃ s', exec (.imageStage fn k binds) s = .next s' ∧
            s'.rd F.SY_IMAGE_STATUS.STATE 0 = (if standing then 6 else 2) ∧
            s'.coat = u.1.coat ∧ s'.lk = u.1.lk ∧ (coatOf s' (stagedSlot s)).digest = imageDigest img ∧
            (coatOf s' (stagedSlot s)).binds = binds ∧
            (standing = true → (if holdover then s'.lt.holdover else s'.lt.standing) = some ⟨img, binds⟩))))) ∧
  (∀ (s : State) (fn k : Nat) (d : List Byte), RingTakes s fn k d → ringOp s fn d = 0x40 → privOf s (.fn fn) = .owner →
    let staged := s.rd F.SY_IMAGE_STATUS.STATE 0 = 2 ∨ s.rd F.SY_IMAGE_STATUS.STATE 0 = 6
    let named := leAt d 8 4 = 0 ∨ leAt d 8 4 = s.rd F.SY_COAT_STATUS.GENERATION 0
    (staged → named → recoating s = false →
      ∃ s', exec (.recoat fn k) s = .next s' ∧ s'.rd F.SY_COAT_STATUS.STATE 0 = 1 ∧
        (ringAt s' fn k).run = .recoat (headAddr s fn k) d ∧ s'.coat = { s.coat with recoatBy := some (fn, k) } ∧
        s'.host.mem = s.host.mem ∧ HeadMoved s fn k s') ∧
    (∀ reason, reason = (if staged ∧ ¬named then 0x22 else 0x21) → ¬(staged ∧ named ∧ recoating s = false) →
      ∃ s', exec (.recoat fn k) s = .next s' ∧ RingDone s fn k d (refusalStatus s fn reason) [] s' ∧
        s'.coat = s.coat ∧ s'.rd F.SY_COAT_STATUS.STATE 0 = s.rd F.SY_COAT_STATUS.STATE 0)) ∧
  (∀ s : State, s.rd F.SY_COAT_STATUS.STATE 0 = 1 →
    ∃ s', exec .recoatFlip s = .next s' ∧ activeSlot s' = stagedSlot s ∧
      s'.rd F.SY_COAT_STATUS.GENERATION 0 = (s.rd F.SY_COAT_STATUS.GENERATION 0 + 1) % 2 ^ 32 ∧
      s'.rd F.SY_COAT_STATUS.STATE 0 = 2 ∧ OtherRegisters s s' (fun r _ => r = .SY_COAT_STATUS) ∧
      (∀ die core th, die < 2 → core < 4 → th < 16 →
        let v : Tid := .steward die core th
        let start := Sparse.get 0xFFFFFFFF (coatOf s (stagedSlot s)).starts ((die * 4 + core) * 16 + th)
        s'.thread v =
          if start = 0xFFFFFFFF ∨ (s.thread v).held ≠ none ∨ (s.lt.held = true ∧ core ≠ 0 ∧ core ≠ 3) then s.thread v
          else { Thread.init with pc := start % 65536, run := .running, held := some (stagedSlot s) }) ∧
      (∀ v : Tid, v.wf = true → isSteward v = false → s'.thread v = s.thread v) ∧
      s'.lt = { s.lt with standingStaged := false } ∧
      { s' with csr := s.csr, lt := s.lt, hn := { s'.hn with threads := s.hn.threads } } = s) ∧
  (∀ s : State, s.rd F.SY_COAT_STATUS.STATE 0 = 2 → oldGone s = true →
    ∃ t, exec .recoatDrainEnd { s with coat := { s.coat with waits := [] } } = .next t ∧
      exec .recoatDrainEnd s =
        .next (s.coat.waits.foldl (fun x w => if waitBlocked x w then addWait x w else serveWait x w) t) ∧
      t.rd F.SY_COAT_STATUS.STATE 0 = 0 ∧ t.rd F.SY_IMAGE_STATUS.STATE 0 = 0 ∧ activeSlot t = activeSlot s ∧
      (∀ fn k addr d, s.coat.recoatBy = some (fn, k) → (ringAt s fn k).run = .recoat addr d → busMaster s fn = true →
        (ringAt t fn k).run = .idle ∧ hostBytes t (addr + 3) 1 = [1] ∧
        hostBytes t (addr + 12) 4 = leBytes 4 (s.rd F.SY_COAT_STATUS.GENERATION 0))) ∧
  (∀ (s : State) (offset : Nat) (width : Width) (value : Word), offset < 2 ^ 30 → s.host.endpoint = .ready →
    let n := match width with
      | .w32 => 4
      | .w64 => 8
    let o := offset / n * n
    (s.on F.SY_IMAGE_STATUS.SERVICE_READY 0 = false →
      exec (.bar2Write 0 offset width value) s = .next (refuse s)) ∧
    (s.on F.SY_IMAGE_STATUS.SERVICE_READY 0 = true → recoating s = true →
      ∃ s', exec (.bar2Write 0 offset width value) s = .next s' ∧
        s'.coat.waits = s.coat.waits ++ [.bar2 0 o width value] ∧
        { s' with coat := { s'.coat with waits := s.coat.waits } } = s) ∧
    (s.on F.SY_IMAGE_STATUS.SERVICE_READY 0 = true → recoating s = false →
      (bar2At s (o / 8 * 8) = none → exec (.bar2Write 0 offset width value) s = .next (refuse s)) ∧
      (∀ x, bar2At s (o / 8 * 8) = some x → x.writable = false → exec (.bar2Write 0 offset width value) s = .next s) ∧
      (∀ sl a, bar2At s (o / 8 * 8) = some (.code sl a) →
        ∃ s', exec (.bar2Write 0 offset width value) s = .next s' ∧
          (width = .w32 → Sparse.get 0 (coatOf s' (stagedSlot s)).code (pairKey sl (a + o % 8 / 4)) =
            BitVec.ofNat 32 value.toNat) ∧
          (width = .w64 → Sparse.get 0 (coatOf s' (stagedSlot s)).code (pairKey sl a) = BitVec.ofNat 32 value.toNat ∧
            Sparse.get 0 (coatOf s' (stagedSlot s)).code (pairKey sl (a + 1)) =
              BitVec.ofNat 32 (value.toNat / 2 ^ 32)) ∧
          coatOf s' (activeSlot s) = coatOf s (activeSlot s) ∧
          (s.rd F.SY_IMAGE_STATUS.STATE 0 = 0 → s'.rd F.SY_IMAGE_STATUS.STATE 0 = 2)) ∧
      (∀ x, bar2At s (o / 8 * 8) = some x → x.writable = true →
        exec (.bar2Write 0 offset width value) s =
          .next (markStaged (bar2Put s x (o % 8) (leBytes n value.toNat))))))

/-- R228 to R234, R237, R241 to R245, R259 and R386. A TABLE_OP completes with its RESULT and, for READ, the entry that the
chosen view sees: NO_TABLE for a table that the view does not have, NOT_FOUND, EXISTS, FULL; a RESULT other than OK changes no
table; INSERT leaves the key with its data, and DELETE the key without an entry, in the chosen view; LPM changes are queued;
FLUSH deletes every entry of the keys whose learned entries match; REALIGN gives the staged view what the active view has;
an associative entry is written whole, completing once its banks have it, or is refused, and read whole. -/
def Obligations.TableOperationsThroughViews : Prop :=
  ∀ (s : State) (fn k : Nat) (d : List Byte), RingTakes s fn k d → ringOp s fn d = 0x10 →
    let tb := topTable d
    let live := topLive d
    let view := viewSlot s live
    let key := topEKey s d
    let seen := fun (x : State) => itemSeen x tb key view
    let oneSeen := ((itemsOf s tb key).filter (fun e => inCoat e.2.coat view)).length ≤ 1
    let result := fun (code : Nat) (s' : State) => RingDone s fn k d 1 [(12, leBytes 2 code)] s'
    let v : Word := BitVec.ofNat 64 (topData d)
    let room := (placeItem s tb key ⟨v, 3, ageNow s, false⟩).isSome = true
    let tells := fun (kind : ChangeKind) (data : Word) (s' : State) =>
      ∀ ns, key = .nibs ns → live = true → (∃ e ∈ itemsOf s tb key, e.2.learned = true) →
        tnLead s = true → s.tn.sending = true → tnLink s = true →
        s'.tn.tx = s.tn.tx ++ [.change ⟨s.tn.change + 1, kind, tb, ns, data, ageNow s⟩]
    let marks := fun (s' : State) => live = false → s.rd F.SY_IMAGE_STATUS.STATE 0 = 0 →
      s'.rd F.SY_IMAGE_STATUS.STATE 0 = 2
    let may := fn = 0 ∨ (privOf s (.fn fn) = .realm ∧ tblRealm s tb = fn ∧ topOwnerOnly d = false)
    let free := live = true ∨ recoating s = false
    let denied := fun (o : Host.Outcome State Fault Refusal) =>
      ¬may → ∃ s', o = .next s' ∧ RingDone s fn k d (refusalStatus s fn 0x20) [] s' ∧ s'.lk = s.lk
    (topOp d = 0 → denied (exec (.tableOpRead fn k) s) ∧
      (may → free → ∃ s', exec (.tableOpRead fn k) s = .next s' ∧ HeadMoved s fn k s' ∧ s'.lk = s.lk ∧
        (isTableOf s tb view = false → result 4 s') ∧
        (isTableOf s tb view = true → seen s = none → result 2 s') ∧
        (∀ l it, isTableOf s tb view = true → seen s = some (l, it) →
          RingDone s fn k d 1 [(12, leBytes 2 0), (16, leBytes 8 it.data.toNat ++ leBytes 2 it.ts ++ leBytes 1 it.coat ++
            leBytes 1 (flag it.learned) ++ leBytes 4 (locAddr s tb l))] s'))) ∧
    (topOp d = 1 → denied (exec (.tableInsert fn k) s) ∧
      (may → free → tblKind s tb ≠ 3 →
        ∃ s', exec (.tableInsert fn k) s = .next s' ∧ HeadMoved s fn k s' ∧
          (isTableOf s tb view = false → result 4 s' ∧ s'.lk = s.lk) ∧
          (isTableOf s tb view = true → seen s ≠ none → topReplace d = false → result 1 s' ∧ s'.lk = s.lk) ∧
          (isTableOf s tb view = true → seen s = none ∨ topReplace d = true →
            let inPlace := if live then seen s ≠ none ∨ itemSeen s tb key (stagedSlot s) ≠ none
              else ∃ l it, seen s = some (l, it) ∧ (it.coat = bitS s ∨ it.data = v)
            (room ∨ inPlace → result 0 s' ∧ marks s' ∧ tells .write v s' ∧
              (oneSeen → ∃ l it, seen s' = some (l, it) ∧ it.data = v)) ∧
            (¬(room ∨ inPlace) → result 3 s' ∧ s'.lk = s.lk)))) ∧
    (topOp d = 2 → denied (exec (.tableDelete fn k) s) ∧
      (may → free → tblKind s tb ≠ 3 →
        let none_ := if live then itemsOf s tb key = [] else seen s = none
        ∃ s', exec (.tableDelete fn k) s = .next s' ∧ HeadMoved s fn k s' ∧
          (isTableOf s tb view = false → result 4 s' ∧ s'.lk = s.lk) ∧
          (isTableOf s tb view = true → none_ → result 2 s' ∧ s'.lk = s.lk) ∧
          (isTableOf s tb view = true → ¬none_ → result 0 s' ∧ marks s' ∧ tells .erase 0 s' ∧
            (oneSeen → seen s' = none) ∧ (live = true → itemsOf s' tb key = [])))) ∧
    (may → free → tblKind s tb = 3 →
      let queued := fun (s' : State) => s'.lk = { s.lk with routeQ := s.lk.routeQ ++ [.op (some (fn, k)) fn d] } ∧
        (ringAt s' fn k).run = .route (headAddr s fn k) d ∧ HeadMoved s fn k s'
      (topOp d = 1 → ∃ s', exec (.tableInsert fn k) s = .next s' ∧ queued s') ∧
      (topOp d = 2 → ∃ s', exec (.tableDelete fn k) s = .next s' ∧ queued s')) ∧
    (topOp d = 3 → denied (exec (.tableFlush fn k) s) ∧
      (may → ∃ s', exec (.tableFlush fn k) s = .next s' ∧ HeadMoved s fn k s' ∧
        (isTableOf s tb (activeSlot s) = false → result 4 s' ∧ s'.lk = s.lk) ∧
        (isTableOf s tb (activeSlot s) = true → result 0 s' ∧ { s'.lk with slots := s.lk.slots } = s.lk ∧
          (Sparse.rising s.lk.slots = true →
            let hit := fun (ns : List (BitVec 4)) => ∃ home n x, entryAt s home n = some x ∧ x.table = tb ∧ x.key = ns ∧
              x.learned = true ∧ (topData d ^^^ x.data.toNat) &&& topMask d = 0
            (∀ ns, hit ns → itemsOf s' tb (.nibs ns) = []) ∧
            (∀ ns, ¬hit ns → itemsOf s' tb (.nibs ns) = itemsOf s tb (.nibs ns)) ∧
            (∀ home n x, entryAt s home n = some x → x.table ≠ tb → entryAt s' home n = some x))))) ∧
    (topOp d = 4 → denied (exec (.realign fn k) s) ∧
      (may → recoating s = false → ∃ s', exec (.realign fn k) s = .next s' ∧ HeadMoved s fn k s' ∧
        (topAll d = false → isTableOf s tb (stagedSlot s) = false → result 4 s' ∧ s'.lk = s.lk) ∧
        (topAll d = false → isTableOf s tb (stagedSlot s) = true → result 0 s' ∧
          (s.rd F.SY_IMAGE_STATUS.STATE 0 = 0 → s'.rd F.SY_IMAGE_STATUS.STATE 0 = 2) ∧
          (Sparse.rising s.lk.slots = true → ∀ home n, entryAt s' home n =
            match entryAt s home n with
            | none => none
            | some x =>
              if x.table ≠ tb then some x
              else if x.coat = bitS s ∨ x.coat = 0 then none
              else if x.coat = bitA s then some { x with coat := 3 } else some x) ∧
          (Sparse.rising s.lk.routes = true → ∀ u, routeAt s' u =
            match routeAt s u with
            | none => none
            | some x =>
              if x.table ≠ tb then some x
              else if x.coat = bitS s ∨ x.coat = 0 then none
              else if x.coat = bitA s then some { x with coat := 3 } else some x)) ∧
        (topAll d = true → result 0 s' ∧ ∀ x, tblCoat s' x =
          if tblCoat s x = bitS s then 0 else if tblCoat s x = bitA s then 3 else tblCoat s x))) ∧
    (topOp d = 5 → denied (exec (.assocWrite fn k) s) ∧
      (may → free →
        let addr := topAddr d
        let old := assocEntry s addr
        let given := BitVec.ofNat 512 (leNat (hostBytes s (topData d) 64))
        let own := assocFree old = true ∨ assocCoat old = bitS s
        let commits := fun (e : BitVec 512) (s' : State) => assocEntry s' addr = assocClamp e ∧
          (ringAt s' fn k).run = .route (headAddr s fn k) d ∧ marks s' ∧
          (queueRoom s addr = true → heldBehind s addr = false →
            ⟨addr % 8192, assocClamp e, some (fn, k)⟩ ∈ Sparse.get [] s'.lk.updates (addr / 8192))
        ∃ s', exec (.assocWrite fn k) s = .next s' ∧ HeadMoved s fn k s' ∧
          (262143 < addr → result 2 s' ∧ s'.lk = s.lk) ∧
          (addr ≤ 262143 → live = true → commits given s') ∧
          (addr ≤ 262143 → live = false →
            (own → assocValid given = true → commits (assocFlags given (bitS s) true) s') ∧
            (own → assocValid given = false → assocFree old = true → result 0 s' ∧ s'.lk = s.lk) ∧
            (own → assocValid given = false → assocFree old = false → commits (assocFlags old 0 false) s') ∧
            (¬own → assocValid given = true → result 5 s' ∧ s'.lk = s.lk) ∧
            (¬own → assocValid given = false → assocCoat old = 3 → commits (assocFlags old (bitA s) true) s') ∧
            (¬own → assocValid given = false → assocCoat old ≠ 3 → result 0 s' ∧ s'.lk = s.lk)))) ∧
    (topOp d = 6 → denied (exec (.assocRead fn k) s) ∧
      (may → ∃ s', exec (.assocRead fn k) s = .next s' ∧ HeadMoved s fn k s' ∧ s'.lk = s.lk ∧
        (262143 < topAddr d → result 2 s') ∧
        (topAddr d ≤ 262143 → result 0 s' ∧
          (topData d + 64 ≤ headAddr s fn k → headAddr s fn k + 64 ≤ 2 ^ 64 →
            hostBytes s' (topData d) 64 = leBytes 64 (assocEntry s (topAddr d)).toNat))))

/-- R219, R220, R245, R256 to R268, R378, R379 and R517. The learn engine takes the oldest event: a new key of a HASH table
that learns is entered with LEARNED, in both coats, and the follower is told; one that is there is refreshed or takes the new
data. A change record is applied on the follower as a live change and a refresh record on the lead sets the TS. A tick adds 1
to NOW; a visit to an expired learned entry sends a compare-and-delete, which deletes the entry if its TS has not changed, and
a follower does neither; the banks of a gang write one index together; the oldest route change that need not wait is
applied, and a VRF's move takes its routes to its new group's stage. -/
def Obligations.LearningAgeingAndRoutes : Prop :=
  (∀ (s : State) (ev : LearnEv) (rest : List LearnEv), s.lk.learnQ = ev :: rest →
    let key := fitKey s ev.table ev.key
    let items := fun (s' : State) => itemsOf s' ev.table (.nibs key)
    let learns := tblKind s ev.table = 2 ∧ tblLearnEn s ev.table = true
    let new : Item := ⟨ev.data, 3, ageNow s, true⟩
    let room := (placeItem s ev.table (.nibs key) new).isSome = true
    let below := tblLearned s ev.table < tblLearnLimit s ev.table
    ∃ s', exec .learnEngineEvent s = .next s' ∧ s'.lk.learnQ = rest ∧ s'.csr = s.csr ∧
      (¬learns ∨ (items s = [] ∧ ¬(below ∧ room)) → s'.lk = { s.lk with learnQ := rest } ∧ s'.tn = s.tn) ∧
      (learns → items s = [] → below → room → (∃ l, (l, new) ∈ items s') ∧
        (tnLead s = true → s.tn.sending = true → tnLink s = true →
          s'.tn.tx = s.tn.tx ++ [.change ⟨s.tn.change + 1, .write, ev.table, key, ev.data, ageNow s⟩])) ∧
      (learns → items s ≠ [] → (∀ e ∈ items s, inCoat e.2.coat 0 = true ∨ inCoat e.2.coat 1 = true) →
        items s' ≠ [] ∧ ∀ e ∈ items s', e.2.data = ev.data ∧ e.2.ts = ageNow s)) ∧
  (∀ (s : State) (ev : LearnEv), tnLead s = true → tnLink s = true →
    let room := s.on F.LK_LEARN_CTRL.EN 0 = true ∧ s.lk.learnQ.length < 4096
    ∃ s', exec (.twinLearnEvent ev) s = .next s' ∧
      (room → s' = { s with lk := { s.lk with learnQ := s.lk.learnQ ++ [ev] } }) ∧
      (¬room → { s' with cnt := s.cnt } = s ∧
        Sparse.get 0 s'.cnt.events 197 = min (Sparse.get 0 s.cnt.events 197 + 1) (2 ^ 64 - 1))) ∧
  (∀ (s : State) (r : ChangeRec), tnFollower s = true → tnLink s = true → tblKind s r.table = 2 →
    let key := fitKey s r.table r.key
    let items := fun (s' : State) => itemsOf s' r.table (.nibs key)
    ∃ s', exec (.changeRecord r) s = .next s' ∧ (r.table, key, r.number) ∈ s'.tn.applied ∧ s'.csr = s.csr ∧
      (r.kind = .erase → items s' = []) ∧
      (r.kind = .write → (∀ e ∈ items s, inCoat e.2.coat 0 = true ∨ inCoat e.2.coat 1 = true) →
        (items s ≠ [] ∨ (placeItem s r.table (.nibs key) ⟨r.data, 3, ageNow s, true⟩).isSome = true → items s' ≠ []) ∧
        ∀ e ∈ items s', e.2.data = r.data ∧ e.2.ts = r.ts ∧ e.2.coat = 3)) ∧
  (∀ (s : State) (tb : Nat) (k : List (BitVec 4)), tnLead s = true → tnLink s = true →
    ∃ s', exec (.refreshRecord tb k) s = .next s' ∧
      (∀ e ∈ itemsOf s' tb (.nibs (fitKey s tb k)), e.2.ts = ageNow s) ∧
      { s' with lk := { s'.lk with slots := s.lk.slots } } = s) ∧
  (∀ s : State, s.clk.diesOn = true →
    ∃ s', exec .ageTick s = .next s' ∧ ageNow s' = (ageNow s + 1) % 65536 ∧ s'.clk.ns = max s.clk.ns s.lk.tickDue ∧
      s'.lk = { s.lk with tickDue := s.lk.tickDue + s.rd F.LK_AGE_CTRL.TICK_MS 0 * 1000000 } ∧
      OtherRegisters s s' (fun r _ => r = .LK_AGE_CTRL)) ∧
  (∀ (s : State) (home slot : Nat) (overrun : Bool) (e : Entry), s.on F.LK_AGE_CTRL.EN 0 = true → tnFollower s = false →
    entryAt s home slot = some e →
    let counted := fun (s' : State) (n : Nat) =>
      Sparse.get 0 s'.cnt.events n = min (Sparse.get 0 s.cnt.events n + 1) (2 ^ 64 - 1)
    ∃ s', exec (.sweepVisit home slot overrun) s = .next s' ∧
      (e.learned = true → tblAgeEn s e.table = true → tblMaxAge s e.table ≤ entryAge s e.ts →
        s'.lk = { s.lk with sweeps := s.lk.sweeps ++ [(e.table, e.key, e.ts)] }) ∧
      (e.learned = false ∨ tblAgeEn s e.table = false ∨ entryAge s e.ts < tblMaxAge s e.table → s'.lk = s.lk) ∧
      (overrun = false → s'.cnt = s.cnt) ∧ (overrun = true → counted s' 205 ∧ counted s' 1090) ∧
      { s' with cnt := s.cnt, lk := s.lk } = s) ∧
  (∀ (s : State) (home slot : Nat) (overrun : Bool), s.on F.LK_AGE_CTRL.EN 0 = false ∨ tnFollower s = true →
    exec (.sweepVisit home slot overrun) s = .next s) ∧
  (∀ (s : State) (tb : Nat) (k : List (BitVec 4)) (ts : Nat) (rest : List (Nat × List (BitVec 4) × Nat)),
    s.lk.sweeps = (tb, k, ts) :: rest →
    let items := itemsOf s tb (.nibs k)
    let same := ∃ e ∈ items, e.2.learned = true ∧ e.2.ts = ts
    ∃ s', exec .ageCompareDelete s = .next s' ∧ s'.lk.sweeps = rest ∧ s'.csr = s.csr ∧
      (tnFollower s = false → same → itemsOf s' tb (.nibs k) = [] ∧
        (tnLead s = true → s.tn.sending = true → tnLink s = true →
          s'.tn.tx = s.tn.tx ++ [.change ⟨s.tn.change + 1, .erase, tb, k, 0, ageNow s⟩])) ∧
      (tnFollower s = true ∨ ¬same → s'.lk = { s.lk with sweeps := rest } ∧ s'.tn = s.tn)) ∧
  (∀ (s : State) (bank delayed : Nat) (w : AssocWrite) (rest : List AssocWrite),
    Sparse.get [] s.lk.updates bank = w :: rest → s.lk.assocHeld = [] →
    let gang := gangOf s bank
    let writes := fun (b : Nat) (x : AssocWrite) => gang.1 ≤ b ∧ b < gang.1 + gang.2 ∧
      (Sparse.get [] s.lk.updates b).head? = some x ∧ x.index = w.index
    ∃ s', exec (.assocBankUpdate bank delayed) s = .next s' ∧
      Sparse.get 0 s'.lk.assocBank (bank * 8192 + w.index) = w.entry ∧ Sparse.get [] s'.lk.updates bank = rest ∧
      (∀ b x, writes b x → Sparse.get [] s'.lk.updates b = (Sparse.get [] s.lk.updates b).tail ∧
        Sparse.get 0 s'.lk.assocBank (b * 8192 + w.index) = x.entry ∧
        Sparse.get none s'.lk.lastUpdate b = some s'.clk.ns ∧
        (s.clk.diesOn = true → bankOos s b = false → updateDue s b ≤ s'.clk.ns) ∧
        (bankOos s b = false → delayed ≠ 0 → Sparse.get 0 s'.cnt.objects (pairKey 194 b) =
          min (Sparse.get 0 s.cnt.objects (pairKey 194 b) + delayed) (2 ^ 64 - 1))) ∧
      (∀ b, (∀ x, ¬writes b x) → Sparse.get [] s'.lk.updates b = Sparse.get [] s.lk.updates b) ∧
      (∀ f r addr x, w.ring = some (f, r) → (∀ b y, b ≠ bank → writes b y → y.ring = none) →
        (ringAt s f r).run = .route addr x → busMaster s f = true →
        (ringAt s' f r).run = .idle ∧ hostBytes s' (addr + 12) 2 = leBytes 2 0) ∧
      s'.csr = s.csr ∧ s'.lk.assoc = s.lk.assoc) ∧
  (∀ (s : State) (bank delayed : Nat), ∃ t,
    exec (.assocBankUpdate bank delayed) { s with lk := { s.lk with assocHeld := [] } } = .next t ∧
    exec (.assocBankUpdate bank delayed) s =
      .next (if Sparse.get [] s.lk.updates bank = [] then s
        else admitHeld { t with lk := { t.lk with assocHeld := s.lk.assocHeld } })) ∧
  (∀ s : State, (∀ j ∈ s.lk.routeQ, jobWaits s j = true) → exec .routeChange s = .next s) ∧
  (∀ (s : State) (pre : List RouteJob) (j : RouteJob) (post : List RouteJob),
    s.lk.routeQ = pre ++ j :: post → (∀ x ∈ pre, jobWaits s x = true) → jobWaits s j = false →
    (∀ w fn d, j = .op w fn d →
      let r := topChange { s with lk := { s.lk with routeQ := pre ++ post } } d
      ∃ s', exec .routeChange s = .next s' ∧ s'.lk = r.1.lk ∧ s'.lk.routeQ = pre ++ post ∧
        ∀ f k addr x, w = some (f, k) → (ringAt s f k).run = .route addr x → busMaster s f = true →
          (ringAt s' f k).run = .idle ∧ hostBytes s' (addr + 12) 2 = leBytes 2 r.2.code) ∧
    (∀ f v g, j = .vrf f v g →
      ∃ s', exec .routeChange s = .next s' ∧ s'.lk.routeQ = pre ++ post ∧
        { s' with lk := { s'.lk with routeQ := s.lk.routeQ, stages := s.lk.stages } } = s ∧
        (Sparse.rising s.lk.routes = true → Sparse.rising s.lk.stages = true → ∀ u r replica group, routeAt s u = some r → r.vrf = v →
          tblFamily s r.table = f → replica < 4 → group < 16 →
          (u ∈ stageUnits s' replica f group ↔ group = vrfGroup s f v)))) ∧
  (∀ (s : State) (a : Agent) (f vrf : Nat) (v : BitVec 32), f < 2 → vrf < 4096 →
    Reaches s a .LK_VRF_MAP (f * 4096 + vrf) 0 →
    let was := vrfGroup s f vrf
    ∃ s', exec (.vrfMapWrite a f vrf v) s = .next s' ∧
      OtherRegisters s s' (fun r i => r = .LK_VRF_MAP ∧ i = f * 4096 + vrf) ∧
      s'.lk = (if vrfGroup s' f vrf = was then s.lk
        else { s.lk with routeQ := s.lk.routeQ ++ [.vrf f vrf was] }) ∧
      vrfGroup s' f vrf = bitsOf v.toNat 0 F.LK_VRF_MAP.GROUP.len)

/-- R274, R276, R278, R279, R281 to R288. The requests of a cycle are decided in requester port order; a buffer that is given was
free, and is out for its owner and requester afterwards. One request draws from its owner's reserve, or is refused by
the owner's limit, or shares, or finds nothing. A return gives a share back, and the last share frees the buffer. A
pool's geometry is clamped, and does not change while the pool is enabled or has buffers out. An owner's reserves are
cut to what the pool can owe. -/
def Obligations.BufferPoolsGiveAndTakeBuffers : Prop :=
  (∀ (s : State) (reqs : List BufReq), s.clk.diesOn = true → (∀ p, poolOut s p + 25 ≤ 2 ^ 27) →
    ∃ s' ds, exec (.bufferRequest reqs) s = .next s' ∧ s'.bm.decided = s.bm.decided ++ ds ∧
      ds.map (fun d => (d.port, d.owner, d.len)) = (orderReqs reqs).map (fun r => (r.port, r.owner, r.len)) ∧
      (∀ d ∈ ds, ∀ h, d.handle = some h → d.len ≤ 16384 ∧ bufAt s h = none ∧
        ∃ b, bufAt s' h = some b ∧ b.owner = d.owner ∧ b.port = d.port ∧ b.shares = 1 ∧ b.allocUs = nowUs s) ∧
      (∀ h b, bufAt s h = some b → bufAt s' h = some b) ∧
      s'.q = s.q ∧ s'.hn = s.hn ∧ s'.host = s.host ∧ s'.clk = s.clk) ∧
  (∀ (s : State) (r : BufReq), s.clk.diesOn = true → r.port < 25 → r.len ≤ 16384 →
    let c := sizeClass r.len
    let p := homePool s r.owner c
    let draws := ownerDrawn s r.owner c < ownerRsv s r.owner c ∧ 1 ≤ visitFree s p
    let over_ := s.rd F.VT_OWNER.LIMIT r.owner < ownerUnits s r.owner + 4 ^ c
    let gives := fun (h : Option Nat) => ∃ s', exec (.bufferRequest [r]) s = .next s' ∧
      s'.bm.decided = s.bm.decided ++ [⟨r.port, r.owner, r.len, h⟩] ∧
      ∀ x, h = some x → handlePool x = p ∧
        bufAt s' x = some ⟨r.owner, decide draws, nowUs s, r.port, false, 1, 0⟩
    s.rd F.VT_POOL_GEOM.HOME p ≤ 2 → poolOut s p + 25 ≤ 2 ^ 27 →
    (draws → ∃ h, gives (some h)) ∧
    (¬draws → over_ → gives none) ∧
    (¬draws → ¬over_ → spillOn s p = false → 1 ≤ poolShared s p → ∃ h, gives (some h)) ∧
    (¬draws → ¬over_ → spillOn s p = false → poolShared s p = 0 → s.on F.VT_POOL_POLICY.FB_EN p = false → gives none)) ∧
  (∀ (s : State) (h : Nat) (b : Buf), bufAt s h = some b →
    let rest := fun (b : Buf) => if b.shares ≤ 1 then none else some { b with shares := b.shares - 1 }
    (0 < b.leaving →
      ∃ s', exec (.bufferReturn h) s = .next s' ∧ bufAt s' h = rest { b with leaving := b.leaving - 1 } ∧
        (∀ h', h' ≠ h → bufAt s' h' = bufAt s h') ∧ { s' with bm := { s'.bm with bufs := s.bm.bufs } } = s) ∧
    (b.leaving = 0 → (∃ d ∈ s.bm.decided, d.handle = some h) →
      ∃ s', exec (.bufferReturn h) s = .next s' ∧ bufAt s' h = rest b ∧
        s'.bm.decided = removeFirst (fun d => d.handle == some h) s.bm.decided ∧
        (∀ h', h' ≠ h → bufAt s' h' = bufAt s h') ∧
        { s' with bm := { s'.bm with bufs := s.bm.bufs, decided := s.bm.decided } } = s)) ∧
  (∀ (s : State) (a : Agent) (p : Nat) (v : Word), Reaches s a .VT_POOL_GEOM p 0 →
    let home := if bitsOf v.toNat 0 2 = 3 then 0 else bitsOf v.toNat 0 2
    let unit := 4 ^ poolClass p
    let base := clampStep 0 (homeUnits home - unit) unit (bitsOf v.toNat 4 27)
    let count := min (bitsOf v.toNat 32 27) ((homeUnits home - base) / unit)
    let same := home = s.rd F.VT_POOL_GEOM.HOME p ∧ base = s.rd F.VT_POOL_GEOM.BASE p ∧ count = s.rd F.VT_POOL_GEOM.COUNT p
    (s.on F.VT_POOL_GEOM.EN p = false → poolOut s p = 0 →
      ∃ s', exec (.poolGeometryWrite a p v) s = .next s' ∧ s'.rd F.VT_POOL_GEOM.HOME p = home ∧
        s'.rd F.VT_POOL_GEOM.BASE p = base ∧ s'.rd F.VT_POOL_GEOM.COUNT p = count ∧ AccessOnly s s') ∧
    (s.on F.VT_POOL_GEOM.EN p = true ∨ poolOut s p ≠ 0 → ¬same →
      ∃ s', exec (.poolGeometryWrite a p v) s = .next s' ∧ AccessOnly s s' ∧
        OtherRegisters s s' (fun _ _ => False) ∧
        Sparse.get 0 s'.cnt.events 321 = min (Sparse.get 0 s.cnt.events 321 + 1) (2 ^ 64 - 1))) ∧
  (∀ (s : State) (a : Agent) (o : Nat) (v : Word), Reaches s a .VT_OWNER o 1 → privOf s a = .owner →
    ∃ s', exec (.ownerReserveWrite a o 1 v) s = .next s' ∧ AccessOnly s s' ∧
      OtherRegisters s s' (fun r i => r = .VT_OWNER ∧ i = o) ∧
      s'.rd F.VT_OWNER.RSV0 o = min (bitsOf v.toNat 0 24) (reserveLimit s o 0) ∧
      s'.rd F.VT_OWNER.RSV1 o = min (bitsOf v.toNat 24 24) (reserveLimit s o 1)) ∧
  (∀ (s : State) (a : Agent) (o : Nat) (v : Word), Reaches s a .VT_OWNER o 2 → privOf s a = .owner →
    ∃ s', exec (.ownerReserveWrite a o 2 v) s = .next s' ∧ AccessOnly s s' ∧
      OtherRegisters s s' (fun r i => r = .VT_OWNER ∧ i = o) ∧
      s'.rd F.VT_OWNER.RSV2 o = min (bitsOf v.toNat 0 24) (reserveLimit s o 2) ∧
      s'.rd F.VT_OWNER.RSV3 o = min (bitsOf v.toNat 24 24) (reserveLimit s o 3)) ∧
  (∀ (s : State) (a : Agent) (o w : Nat) (v : Word), Reaches s a .VT_OWNER o w → w = 0 ∨ w = 3 →
    ∃ s', exec (.ownerReserveWrite a o w v) s = .next s' ∧ AccessOnly s s' ∧
      OtherRegisters s s' (fun r i => r = .VT_OWNER ∧ i = o) ∧
      (w = 0 → s'.rd F.VT_OWNER.LIMIT o = bitsOf v.toNat 32 32) ∧
      (w = 3 → s'.rd F.VT_OWNER.SRAM_CAP o = bitsOf v.toNat 0 32 ∧
        s'.rd F.VT_OWNER.LEAK_MS o = clampRange 1 65535 (bitsOf v.toNat 32 16)))

/-- R291 to R298 and R517. The assay goes on in handle order, putting each buffer that is out into its owner's bin and
marking it stale at 2^31 µs; the pass's end visits what is left, publishes the bins and the oldest age, sets LEAK for an owner
whose age exceeds its limit, asserts the line of one newly so, and counts a pass of more than 2 s. The frame age sweep
discards a queue's packets from the head while they are older than the queue's limit, and counts a head left too long. -/
def Obligations.AssayAndFrameAge : Prop :=
  (∀ (s : State) (last : Nat), Sparse.rising s.bm.bufs = true →
    let aged := fun (b : Buf) => decide (2 ^ 31 ≤ bufAge s b)
    let age := fun (b : Buf) => if b.stale || aged b then 2 ^ 32 - 1 else bufAge s b
    let bin := fun (b : Buf) => assayBin (2 ^ s.bm.base) (age b)
    let seen := bufsOf s (fun h _ => decide (s.bm.cursor ≤ h ∧ h ≤ last) && s.on F.VT_POOL_GEOM.EN (handlePool h))
    ∃ s', exec (.assayVisit last) s = .next s' ∧ s'.bm.cursor = max s.bm.cursor (last + 1) ∧
      (∀ h b, (h, b) ∈ seen → bufAt s' h = some { b with stale := b.stale || aged b } ∧
        ∃ a x, Sparse.get none s'.bm.oldest b.owner = some (a, x) ∧ age b ≤ a) ∧
      (∀ h, (∀ b, (h, b) ∉ seen) → bufAt s' h = bufAt s h) ∧
      (∀ o k, k < 8 → Sparse.get 0 s'.bm.bins (o * 8 + k) = Sparse.get 0 s.bm.bins (o * 8 + k) +
        (seen.filter (fun e => decide (e.2.owner = o ∧ bin e.2 = k))).length) ∧
      (∀ o a x, Sparse.get none s'.bm.oldest o = some (a, x) → Sparse.get none s.bm.oldest o = some (a, x) ∨
        ∃ b, (x, b) ∈ seen ∧ b.owner = o ∧ age b = a) ∧
      { s' with bm := s.bm } = s) ∧
  (∀ (s : State) (lines : List (Nat × Nat)),
    let over_ := s.bm.passAt + 2000000000 < s.clk.ns
    let sup : Tid := .steward 1 0 0
    ∃ t s', exec (.assayVisit (2 ^ 33)) s = .next t ∧ exec (.assayPassEnd lines) s = .next s' ∧
      (let line := fun (o : Nat) => assayLine t o
       (∀ o, Sparse.get none s'.bm.published o = line o) ∧ s'.bm.bins = [] ∧ s'.bm.oldest = [] ∧
        s'.bm.cursor = 0 ∧ s'.bm.passAt = s.clk.ns ∧ s'.bm.base = s.rd F.VT_BUF_CTRL.HIST_BASE 0 ∧
        s'.rd F.VT_ASSAY_STATUS.PASSES 0 = (s.rd F.VT_ASSAY_STATUS.PASSES 0 + 1) % 2 ^ 32 ∧
        (∀ o l, line o = some l → l.leakNow = true → s'.rd F.VT_ASSAY.LEAK o = 1) ∧
        (∀ o, (∀ l, line o = some l → l.leakNow = false) → s'.rd F.VT_ASSAY.LEAK o = s.rd F.VT_ASSAY.LEAK o) ∧
        (∀ o n l, lines = [(o, n)] → line o = some l → l.leakNow = true → leakNow s o = false →
          s'.thread sup = lineAsserted (s.thread sup) n) ∧
        (∀ v : Tid, v.wf = true → v ≠ sup → s'.thread v = s.thread v)) ∧
      s'.bm.bufs = t.bm.bufs ∧ s'.q = s.q ∧ (¬over_ → s'.cnt = s.cnt) ∧
      (over_ → Sparse.get 0 s'.cnt.events 1090 = min (Sparse.get 0 s.cnt.events 1090 + 1) (2 ^ 64 - 1))) ∧
  (∀ (s : State) (q : QueueId),
    let late := ∃ t, Sparse.get none s.q.ageSeen (queueObj q) = some t ∧
      t + s.rd F.VT_BUF_CTRL.AGE_SWEEP_US 0 * 1000 < s.clk.ns
    ∃ s' gone, exec (.frameAgeSweep q) s = .next s' ∧ queueList s q = gone ++ queueList s' q ∧
      (late → Sparse.get 0 s'.cnt.events 1090 = min (Sparse.get 0 s.cnt.events 1090 + 1) (2 ^ 64 - 1)) ∧
      (∀ x ∈ gone, tooOld s q x = true) ∧ (∀ x rest, queueList s' q = x :: rest → tooOld s q x = false) ∧
      (∀ q', q' ≠ q → queueList s' q' = queueList s q') ∧ s'.csr = s.csr)

/-- R275, R277, R300, R302, R305 to R316, R363 to R365 and R453. A packet at Varton ingress is discarded for a reserved destination, takes its buffer,
where its bytes are written, and, if queue admission lets it, joins the VOQ of its destination and class; without a buffer, or shed, it is
discarded. -/
def Obligations.VartonIngressQueuesPackets : Prop :=
  ∀ (s : State) (src : IngressFrom) (port : Nat) (p : Pkt),
    (src = .dieLink port ∧ port < 16 ∧ s.hn.dieLink.head? = some p) ∨
      (∃ tk data, src = .steward tk data ∧ port = 24 ∧ p = Pkt.withLength ⟨tk, data⟩ ∧ s.clk.diesOn = true) →
    Tk.mirror p.ticket = false →
    let link := if port = 24 then s.hn.dieLink else s.hn.dieLink.tail
    let tc := Tk.tc p.ticket
    let q := 8 * Tk.dest p.ticket + tc
    let plain := reservedDest s (Tk.dest p.ticket) = false ∧ s.rd F.LT_POWER.STATE 0 ≠ 2 ∧ isGenerated s p = false ∧
      Tk.useMeter p.ticket = false ∧ Tk.session p.ticket = 0 ∧
      (Tk.source p.ticket < 160 → s.on F.FB_MSRC.EN (Tk.source p.ticket) = false)
    let used := s.q.adm.used.getD tc 0
    let quota := s.q.adm.quota.getD tc 0
    (reservedDest s (Tk.dest p.ticket) = true →
      ∃ s', exec (.vartonIngress src) s = .next s' ∧ s'.hn.dieLink = link ∧ s'.q = s.q ∧ s'.bm = s.bm ∧
        Sparse.get 0 s'.cnt.events 1236 = min (Sparse.get 0 s.cnt.events 1236 + 1) (2 ^ 64 - 1)) ∧
    (∀ h ds, plain → s.bm.decided = ⟨port, Tk.owner p.ticket, p.data.length, h⟩ :: ds →
      (h = none → ∃ s', exec (.vartonIngress src) s = .next s' ∧ s'.hn.dieLink = link ∧ s'.q = s.q ∧
        s'.bm = { s.bm with decided := ds } ∧ s'.csr = s.csr) ∧
      (∀ x, h = some x → s.q.adm.shedding = false ∨ used < quota → fits s (.voq q) p = true →
        ∃ s', exec (.vartonIngress src) s = .next s' ∧ s'.hn.dieLink = link ∧
          voqOf s' q = voqOf s q ++ [⟨p, nowUs s, x, myId s⟩] ∧ (∀ q', q' ≠ q → voqOf s' q' = voqOf s q') ∧
          s'.q.adm.arrived = modifyAt (· + p.data.length) s.q.adm.arrived tc ∧
          s'.bm = { s.bm with decided := ds } ∧ OtherRegisters s s' (fun r _ => r = .HB_STATUS) ∧
          (∀ st, bufStack s x = some st → ∀ i, i < p.data.length →
            Sparse.get (0 : Byte) s'.hb.mem (pairKey st (bufAddr s x + i)) = p.data.getD i 0)) ∧
      (∀ x b, h = some x → bufAt s x = some b → b.shares = 1 → s.q.adm.shedding = true → quota ≤ used → tc ≠ 7 →
        ∃ s', exec (.vartonIngress src) s = .next s' ∧ s'.hn.dieLink = link ∧ s'.q.voqs = s.q.voqs ∧
          bufAt s' x = none ∧
          Sparse.get 0 s'.cnt.events 452 = min (Sparse.get 0 s.cnt.events 452 + 1) (2 ^ 64 - 1)) ∧
      (∀ x b, h = some x → bufAt s x = some b → b.shares = 1 → s.q.adm.shedding = false → fits s (.voq q) p = false →
        ∃ s', exec (.vartonIngress src) s = .next s' ∧ s'.hn.dieLink = link ∧ s'.q.voqs = s.q.voqs ∧
          bufAt s' x = none ∧
          Sparse.get 0 s'.cnt.events 451 = min (Sparse.get 0 s.cnt.events 451 + 1) (2 ^ 64 - 1)))

/-- R65, R301, R306, R310, R313 and R314. An epoch's end decides whether the VOQs shed and gives the classes their quotas from class 7 down. A
meter window reads a meter's descriptor, or commits one, its buckets cut to their sizes or filled, and is BUSY while it does; writes to a BUSY window are discarded. A packet for a realm's
host is written to the buffer that its punt ring's descriptor names, and the descriptor after it. -/
def Obligations.QueueEpochsMetersAndPunts : Prop :=
  (∀ s : State, s.clk.diesOn = true →
    let a := s.q.adm
    let backlog := voqBacklog s
    let on := s.rd F.VT_QADM_CTRL.QSHED_ON 0 * 2 ^ 20
    let off := s.rd F.VT_QADM_CTRL.QSHED_OFF 0 * 2 ^ 20
    let budget := a.sent - (backlog - off) / 16
    ∃ s', exec .queueEpochEnd s = .next s' ∧
      (let a' := s'.q.adm
       a'.epoch = a.epoch + 1 ∧ a'.sent = 0 ∧ a'.peak = backlog ∧ a'.used = List.replicate 8 0 ∧
        (a.shedding = false → (a'.shedding = true ↔ on ≤ max a.peak backlog)) ∧
        (a.shedding = true → (a'.shedding = false ↔ backlog ≤ off ∧ 15 ≤ a.calm)) ∧
        (a'.shedding = true → (∀ c, c < 8 → a'.quota.getD c 0 ≤ a.arrived.getD c 0) ∧ sumOf a'.quota ≤ budget ∧
          a'.quota.getD 7 0 = min (a.arrived.getD 7 0) budget) ∧
        s'.rd F.VT_QADM_CTRL.SHEDDING 0 = (if a'.shedding then 1 else 0)) ∧
      s'.clk.ns = max s.clk.ns ((a.epoch + 1) * 1024) ∧ s'.q.voqs = s.q.voqs ∧ s'.host = s.host) ∧
  (∀ (s : State) (a : Agent) (w index : Nat), Reaches s a .VT_MTR_WIN w 0 → windowBusy s .VT_MTR_WIN w = true →
    ∃ s', exec (.meterRead a w index) s = .next s' ∧ exec (.meterWrite a w index) s = .next s' ∧
      exec (.meterWriteFill a w index) s = .next s' ∧ AccessOnly s s' ∧ OtherRegisters s s' (fun _ _ => False)) ∧
  (∀ (s : State) (a : Agent) (w index : Nat), Reaches s a .VT_MTR_WIN w 0 → windowBusy s .VT_MTR_WIN w = false →
    let n := index % 2 ^ 20
    let d := clampMeter n (s.rd F.VT_MTR_WIN.DATA0 w) (s.rd F.VT_MTR_WIN.DATA1 w)
    let m := (meterAt s n).refill s.clk.ns
    let shows := fun (s' : State) => s'.rd F.VT_MTR_WIN.INDEX w = n ∧
      (a ≠ .startWrite → Sparse.get 0 s'.host.busyTill (pairKey Reg.VT_MTR_WIN.code w) = s.clk.ns + min Config.windowNs 1000) ∧
      s'.rd F.VT_MTR_WIN.DATA0 w = (meterAt s' n).d0.toNat ∧ s'.rd F.VT_MTR_WIN.DATA1 w = (meterAt s' n).d1.toNat ∧
      OtherRegisters s s' (fun r i => r = .VT_MTR_WIN ∧ i = w) ∧ (∀ k, k ≠ n → meterAt s' k = meterAt s k)
    let commits := fun (s' : State) => (meterAt s' n).d0 = BitVec.ofNat 64 d.1 ∧ (meterAt s' n).d1 = BitVec.ofNat 64 d.2 ∧
      (meterAt s' n).last = m.last
    (∃ s', exec (.meterRead a w index) s = .next s' ∧ shows s' ∧
      { s' with csr := s.csr, cnt := s.cnt, host := { s'.host with
        held := s.host.held, busyTill := s.host.busyTill } } = s) ∧
    (∃ s', exec (.meterWrite a w index) s = .next s' ∧ shows s' ∧ commits s' ∧
      (meterAt s' n).c = min m.c (meterAt s' n).cbs ∧ (meterAt s' n).e = min m.e (meterAt s' n).ebs) ∧
    (∃ s', exec (.meterWriteFill a w index) s = .next s' ∧ shows s' ∧ commits s' ∧
      (meterAt s' n).c = (meterAt s' n).cbs ∧ (meterAt s' n).e = (meterAt s' n).ebs)) ∧
  (∀ (s t : State) (n : Nat) (path : List Nat) (x : Queued), n < 64 → s.clk.diesOn = true → puntRoom s n = true →
    choosePort s (192 + n) = (t, .head path x) → Clean s x →
    let head := s.rd F.SY_PUNT_PTRS.HEAD n
    let desc := s.rd F.SY_PUNT_BASE.BASE n * 65536 + 16 * head
    let buf := leNat (hostBytes s desc 8) / 64 * 64
    let bytes := tkBytes x.pkt.withLength.ticket ++ x.pkt.data
    let cut := bytes.take (2 ^ s.rd F.SY_PUNT_BASE.BUF_LOG2 n)
    ∃ s', exec (.puntDelivery n) s = .next s' ∧
      s'.rd F.SY_PUNT_PTRS.HEAD n = (head + 1) % 2 ^ s.rd F.SY_PUNT_BASE.LOG2_ENTRIES n % 2 ^ 16 ∧
      (buf + cut.length ≤ desc → desc + 16 ≤ 2 ^ 64 → hostBytes s' buf cut.length = cut ∧
        hostBytes s' (desc + 8) 8 = leBytes 4 cut.length ++
          leBytes 1 (if cut.length < bytes.length then 2 else 1) ++ leBytes 1 (Tk.tc x.pkt.ticket) ++
          leBytes 2 (Tk.source x.pkt.ticket)) ∧
      OtherRegisters s s' (fun r i => (r = .SY_PUNT_PTRS ∧ i = n) ∨ r = .HB_STATUS))

/-- R291, R301, R317 to R329, R335, R345 to R347 and R453. A scheduler's decision takes the head of a queue beneath it that is
not too old and sends it: a port's packet goes to Henig egress, where that accepts for the destination, and a VOQ's to its
module as cells, over the crossbar or on the lanes of its pattern; with nothing eligible nothing changes. The wheel releases the entries that
are due. A shaper entry that is written starts afresh, and an element that moves joins the end of its new round. -/
def Obligations.SchedulersAndShapers : Prop :=
  (∀ (s t : State) (d : Nat) (path : List Nat) (x : Queued), choosePort s d = (t, .head path x) → Clean s x →
    (d < 160 ∧ henigAccepts s d = true) ∨ (d = 161 ∧ twinAccepts s = true) →
    ∃ s' q rest, exec (.schedulerDecision (.port d)) s = .next s' ∧ pathQueue path = some q ∧
      queueList t q = x :: rest ∧ tooOld s q x = false ∧ queueList s' q = rest ∧
      s'.hn.egressWait = s.hn.egressWait ++ (if d < 160 then [(d, x.pkt)] else []) ∧
      (∃ gone, queueList s q = gone ++ x :: rest ∧ ∀ y ∈ gone, tooOld s q y = true) ∧
      OtherRegisters s s' (fun r _ => r = .HB_STATUS)) ∧
  (∀ (s : State) (d : Nat), ¬((d < 160 ∧ henigAccepts s d = true) ∨ (d = 161 ∧ twinAccepts s = true)) →
    exec (.schedulerDecision (.port d)) s = .next s) ∧
  (∀ (s t : State) (path : List Nat) (x : Queued),
    decideSend accepts holdsGrant Elem.root.code (queuedCount s.q.voqs + 1) s = (t, .head path x) →
    Clean s x → isGroup s (Tk.dest x.pkt.ticket) = false →
    ∃ s' q rest, exec (.schedulerDecision .voq) s = .next s' ∧ pathQueue path = some q ∧
      queueList t q = x :: rest ∧ tooOld s q x = false ∧ queueList s' q = rest ∧
      s'.q.adm.sent = s.q.adm.sent + x.len ∧
      (Tk.dest x.pkt.ticket / 1024 = myId s →
        s'.fb.xbar = s.fb.xbar ++ mkCells x.pkt false (Tk.dest x.pkt.ticket) (myId s)
          (if Tk.tc x.pkt.ticket = 7 then 1 else 0)
          (Sparse.get 0 s.fb.cseq (pairKey (myId s) (if Tk.tc x.pkt.ticket = 7 then 1 else 0)))) ∧
      (∀ k, Tk.dest x.pkt.ticket / 1024 ≠ myId s → Tk.tc x.pkt.ticket ≠ 7 →
        patternOf s (Tk.dest x.pkt.ticket / 1024) = [k] →
        (laneTx s' k).bulk = (laneTx s k).bulk ++ mkCells x.pkt (laneLevel s k == 1 && !twinLane s k)
          (Tk.dest x.pkt.ticket) (myId s) 0
          (Sparse.get 0 s.fb.cseq (pairKey (Tk.dest x.pkt.ticket / 1024) 0)))) ∧
  (∀ s : State, eligible accepts holdsGrant 6 s .root = false → exec (.schedulerDecision .voq) s = .next s) ∧
  (∀ (s : State) (b : Nat), nextBoundary s = some b → Sparse.rising s.q.shapers = true →
    ∃ s', exec .wheelRelease s = .next s' ∧ s'.q.boundary = b ∧
      (s.clk.diesOn = true → s'.clk.ns = max s.clk.ns ((5 * b + 1) / 2)) ∧
      (∀ h, (shaperAt s' h).tat = (shaperAt s h).tat) ∧
      (∀ h, (shaperAt s' h).wheel = none ∨ (shaperAt s' h).wheel = (shaperAt s h).wheel) ∧
      (∀ h w, (shaperAt s h).wheel = some w → b < w → (shaperAt s' h).wheel = some w) ∧
      ((s.q.shapers.filter (fun e => match e.2.wheel with
          | some w => decide (w ≤ b)
          | none => false)).length ≤ 16 →
        ∀ h w, (shaperAt s h).wheel = some w → w ≤ b → (shaperAt s' h).wheel = none) ∧ s'.csr = s.csr) ∧
  (∀ (s : State) (a : Agent) (h : Nat) (v : Word), Reaches s a .VT_SHAPER h 0 →
    ∃ s', exec (.shaperWrite a h v) s = .next s' ∧
      s'.rd F.VT_SHAPER.RATE h = clampRange 1 100000000 (bitsOf v.toNat 0 27) ∧
      s'.rd F.VT_SHAPER.BURST h = bitsOf v.toNat 27 24 ∧ s'.rd F.VT_SHAPER.ADJ h = bitsOf v.toNat 51 7 ∧
      shaperAt s' h = ⟨s.clk.ns * 65536, none⟩ ∧ (∀ k, k ≠ h → shaperAt s' k = shaperAt s k) ∧
      OtherRegisters s s' (fun r i => r = .VT_SHAPER ∧ i = h)) ∧
  (∀ (s : State) (a : Agent) (v : Word),
    let quantum := clampRange 1 65536 (bitsOf v.toNat 0 17)
    let moved := fun (s' : State) (e : Elem) => elemPlace s' e ≠ elemPlace s e ∨ elemEn s' e ≠ elemEn s e →
      ∀ k, elemPlace s' e = some k → ∃ l, Sparse.get none s'.q.rounds k = some (l ++ [e.code])
    (∀ d, Reaches s a .VT_PORT d 0 →
      ∃ s', exec (.schedElementWrite a (.port d) v) s = .next s' ∧ AccessOnly s s' ∧
        s'.rd F.VT_PORT.EN d = (if 162 ≤ d ∧ d ≤ 191 then 0 else bitsOf v.toNat 63 1) ∧
        s'.rd F.VT_PORT.SHAPER d = bitsOf v.toNat 18 18 ∧ s'.rd F.VT_PORT.SH_EN d = bitsOf v.toNat 17 1) ∧
    (∀ n, Reaches s a .VT_NODE n 0 →
      ∃ s', exec (.schedElementWrite a (.node n) v) s = .next s' ∧ s'.rd F.VT_NODE.QUANTUM n = quantum ∧
        s'.rd F.VT_NODE.EN n = bitsOf v.toNat 63 1 ∧ moved s' (.node n) ∧
        OtherRegisters s s' (fun r i => r = .VT_NODE ∧ i = n)) ∧
    (∀ e, Reaches s a .VT_EQ e 0 →
      ∃ s', exec (.schedElementWrite a (.eq e) v) s = .next s' ∧ s'.rd F.VT_EQ.QUANTUM e = quantum ∧
        s'.rd F.VT_EQ.EN e = bitsOf v.toNat 63 1 ∧ s'.rd F.VT_EQ.TPROF e = bitsOf v.toNat 36 8 ∧ moved s' (.eq e) ∧
        OtherRegisters s s' (fun r i => r = .VT_EQ ∧ i = e)) ∧
    (∀ q, Reaches s a .VT_VOQ q 0 →
      ∃ s', exec (.schedElementWrite a (.voq q) v) s = .next s' ∧ s'.rd F.VT_VOQ.QUANTUM q = quantum ∧
        s'.rd F.VT_VOQ.TPROF q = bitsOf v.toNat 36 8 ∧ moved s' (.voq q) ∧
        OtherRegisters s s' (fun r i => r = .VT_VOQ ∧ i = q)))

/-- R330 to R332. Powering a destination down starts its drain; at the drain's end its queues are empty and it is OFF, or ON
again when that was asked for meanwhile; an OFF destination comes back at once. -/
def Obligations.DestinationsDrainAndReturn : Prop :=
  ∀ (s : State) (d : Nat), d < 256 →
    (powerOf s d = 0 →
      ∃ s', exec (.destinationPowerDown d) s = .next s' ∧ powerOf s' d = 1 ∧
        Sparse.get none s'.q.drainEnd d = some (s.clk.ns + s.rd F.VT_DRAIN_CTRL.DRAIN_US 0 * 1000) ∧
        s'.q.eqs = s.q.eqs ∧ OtherRegisters s s' (fun r i => r = .VT_PORT ∧ i = d)) ∧
    (powerOf s d ≠ 0 → exec (.destinationPowerDown d) s = .next s) ∧
    (powerOf s d = 1 →
      ∃ s', exec (.drainEnd d) s = .next s' ∧
        powerOf s' d = (if Sparse.get false s.q.upAfter d = true then 0 else 2) ∧
        (∀ e, chainPort s (.eq e) = some d → eqOf s' e = []) ∧
        (∀ e, chainPort s (.eq e) ≠ some d → eqOf s' e = eqOf s e) ∧
        Sparse.get none s'.q.drainEnd d = none ∧ Sparse.get false s'.q.upAfter d = false ∧
        (s.clk.diesOn = true → portDepth s d ≠ 0 → ∀ due, Sparse.get none s.q.drainEnd d = some due →
          s'.clk.ns = max s.clk.ns due)) ∧
    (powerOf s d = 1 →
      ∃ s', exec (.destinationPowerUp d) s = .next s' ∧ Sparse.get false s'.q.upAfter d = true ∧ powerOf s' d = 1 ∧
        { s' with q := { s'.q with upAfter := s.q.upAfter } } = s) ∧
    (powerOf s d = 2 →
      ∃ s', exec (.destinationPowerUp d) s = .next s' ∧ powerOf s' d = 0 ∧ s'.q.eqs = s.q.eqs ∧
        OtherRegisters s s' (fun r i => r = .VT_PORT ∧ i = d))

/-- R336, R337, R340, R344 and R346 to R353. A cell on a lane is discarded before the first coat, or for a bad header, and counted; the
expected cell of a stream moves E on, one ahead of it is stored, and an old one counts late; when the window ends, E moves
past the gap. An enabled lane sends HELLO, comes UP at the highest level both sides offer, or is refused; a lane that
fails leaves UP. XOFF and XON stop and start a destination. A lane sends control before express, express before relayed and
relayed before bulk cells. -/
def Obligations.LanesCellsAndFlowControl : Prop :=
  (∀ (s : State) (lane : Nat) (h : BitVec 128) (pl : List Byte), lane < 48 → laneUp s lane = true →
    let got := s.count 1230 (some lane) 1 { tc := some (Hd.tc h) }
    (Hd.type h = 0 → exec (.cellReceive lane h pl) s = .next got) ∧
    (Hd.type h ≠ 0 → s.rd F.SY_COAT_STATUS.GENERATION 0 = 0 →
      exec (.cellReceive lane h pl) s = .next (got.count 1155 none 1 {})) ∧
    (Hd.type h ≠ 0 → s.rd F.SY_COAT_STATUS.GENERATION 0 ≠ 0 → headerGood h = false →
      exec (.cellReceive lane h pl) s = .next (got.count 576 (some lane) 1 {}))) ∧
  (∀ (s : State) (c : Cell) (cs : List Cell) (h : BitVec 128) (pl : List Byte), s.fb.xbar = c :: cs →
    let k := 2 * Hd.src c.hdr + (if Hd.express c.hdr = true then 1 else 0)
    let r := rxAt s k
    let d := cseqDelta (Hd.cseq c.hdr) r.expect
    let same := r.stored.any (fun x => Hd.cseq x.cell.hdr == Hd.cseq c.hdr)
    (d = 0 → r.stored = [] →
      ∃ s', exec (.cellReceive 48 h pl) s = .next s' ∧ s'.fb.xbar = cs ∧
        rxAt s' k = ⟨(r.expect + 1) % 2 ^ 24, []⟩ ∧ (∀ k', k' ≠ k → rxAt s' k' = rxAt s k')) ∧
    (0 < d → d < 2 ^ 23 → same = false → storedCount s < 131072 →
      ∃ s', exec (.cellReceive 48 h pl) s = .next s' ∧ s'.fb.xbar = cs ∧
        rxAt s' k = ⟨r.expect, r.stored ++ [⟨c, s.clk.ns, false⟩]⟩ ∧ (∀ k', k' ≠ k → rxAt s' k' = rxAt s k') ∧
        { s' with fb := s.fb } = s) ∧
    (0 < d → 2 ^ 23 ≤ d ∨ same = true →
      ∃ s', exec (.cellReceive 48 h pl) s = .next s' ∧
        Sparse.get 0 s'.cnt.events 579 = min (Sparse.get 0 s.cnt.events 579 + 1) (2 ^ 64 - 1) ∧
        { s' with cnt := s.cnt } = { s with fb := { s.fb with xbar := cs } })) ∧
  (∀ (s : State) (src : Nat) (express : Bool) (c : RxCell),
    let k := 2 * src + (if express = true then 1 else 0)
    (rxAt s k).stored = [c] → (rxAt s k).expect < 2 ^ 24 → s.clk.diesOn = true →
    ∃ s', exec (.reorderWindowExpiry src express) s = .next s' ∧
      rxAt s' k = ⟨(Hd.cseq c.cell.hdr + 1) % 2 ^ 24, []⟩ ∧ (∀ k', k' ≠ k → rxAt s' k' = rxAt s k') ∧
      Sparse.get 0 s'.cnt.events 580 = min (Sparse.get 0 s.cnt.events 580 +
        cseqDelta (Hd.cseq c.cell.hdr) (rxAt s k).expect) (2 ^ 64 - 1) ∧
      s'.clk.ns = max s.clk.ns (c.arrived + s.rd F.FB_REORDER_CTRL.WINDOW_US 0 * 1000)) ∧
  (∀ (s : State) (lane : Nat), lane < 48 →
    (s.on F.FB_LINK.EN lane = true → laneState s lane = 1 ∨ laneState s lane = 2 →
      let t := laneTx s lane
      let msg := controlMsg 6 (myId s) 0 0 0 (helloInfo s lane)
      exec (.helloTimer lane) s =
        .next (s.setLaneTx lane { t with control := t.control ++ [(s.rd F.FB_LINK.PEER lane, msg)] })) ∧
    (laneUp s lane = true →
      ∃ s', exec (.laneDown lane) s = .next s' ∧
        laneState s' lane = (if laneMayTrain s lane = true then 1 else 0) ∧ s'.rd F.FB_LINK.LEVEL_EFF lane = 0 ∧
        s'.q = s.q ∧ s'.bm = s.bm ∧ s'.host = s.host)) ∧
  (∀ (s : State) (lane : Nat) (msg : Word), lane < 48 → s.on F.FB_LINK.EN lane = true → laneState s lane = 1 →
    svState s (96 + lane) = 0 →
    let peer := bitsOf msg.toNat 4 6
    let levels := s.rd F.FB_LINK.LEVELS lane &&& bitsOf msg.toNat 48 3
    let heard := { s with fb := { s.fb with hello := Sparse.set 0 s.fb.hello lane (bitsOf msg.toNat 48 16) } }
    let agrees := levels ≠ 0 ∧ bitsOf msg.toNat 51 2 = modeEff s ∧
      meshRefuses (heard.wr F.FB_LINK.PEER lane peer) lane peer = false
    ∃ s', exec (.hello lane msg) s = .next s' ∧ s'.rd F.FB_LINK.PEER lane = peer ∧
      (agrees → laneState s' lane = 2 ∧
        s'.rd F.FB_LINK.LEVEL_EFF lane = (if 4 ≤ levels then 3 else if 2 ≤ levels then 2 else 1)) ∧
      (¬agrees → laneState s' lane = 3 ∧
        Sparse.get 0 s'.cnt.events 577 = min (Sparse.get 0 s.cnt.events 577 + 1) (2 ^ 64 - 1)) ∧
      OtherRegisters s s' (fun r i => r = .FB_LINK ∧ i = lane)) ∧
  (∀ (s : State) (dest : Nat),
    let heard := fun (stop : Bool) (s' : State) => Sparse.get false s'.fb.xoffHeard dest = stop ∧
      (∀ d, d ≠ dest → Sparse.get false s'.fb.xoffHeard d = Sparse.get false s.fb.xoffHeard d) ∧
      { s' with fb := { s'.fb with xoffHeard := s.fb.xoffHeard } } = s
    (∃ s', exec (.xoff dest) s = .next s' ∧ heard true s' ∧ accepts s' dest = false) ∧
    (∃ s', exec (.xon dest) s = .next s' ∧ heard false s' ∧
      (isGroup s dest = false → accepts s' dest = reaches s (dest / 1024)))) ∧
  (∀ (s : State) (k : Nat) (t : LaneTx) (m : Nat) (msg : Word) (cs : List (Nat × Word)), laneUp s k = true →
    laneTx s k = t →
    (t.control = (m, msg) :: cs → (∀ x ∈ cs, x.1 ≠ m) →
      (transmitLane s k).out = s.out ++ [.cell k (controlCell s m [msg])] ∧
      laneTx (transmitLane s k) k = { t with control := cs }) ∧
    (t.control = [] → twinLane s k = false →
      (∀ c q, t.relayedCtl = c :: q → (transmitLane s k).out = s.out ++ [.cell k c]) ∧
      (∀ c q, t.relayedCtl = [] → t.express = c :: q → (transmitLane s k).out = s.out ++ [.cell k c]) ∧
      (∀ c q, t.relayedCtl = [] → t.express = [] → t.relayed = c :: q →
        (transmitLane s k).out = s.out ++ [.cell k c]) ∧
      (∀ c q, t.relayedCtl = [] → t.express = [] → t.relayed = [] → t.bulk = c :: q →
        (transmitLane s k).out = s.out ++ [.cell k c]) ∧
      (t = LaneTx.init → transmitLane s k = s)))

/-- R337, R355 to R358 and R362. A request waits at its destination's arbiter, which grants the first requesting module at or after its
pointer when the granted cells stay within EXP_CELLS or none are granted; a destination that is not ON grants at once. A
grant makes its VOQ eligible for one packet; a cancel, or GRANT_TIMEOUT_US, settles its token. Residue that is RETRY_US
old is dropped and counted. -/
def Obligations.RequestsGrantsAndRetries : Prop :=
  (∀ (s : State) (src dest cells : Nat), dest / 1024 = myId s → powerOf s (dest % 1024) = 0 →
    ∃ s', exec (.request src dest cells) s = .next s' ∧
      arbAt s' (dest % 1024) = { arbAt s (dest % 1024) with waiting := (arbAt s (dest % 1024)).waiting ++ [(src, cells)] } ∧
      { s' with fb := { s'.fb with arbs := s.fb.arbs } } = s) ∧
  (∀ (s : State) (src dest cells : Nat), dest / 1024 = myId s → powerOf s (dest % 1024) ≠ 0 → src ≠ myId s →
    ∃ s', exec (.request src dest cells) s = .next s' ∧
      ControlSent s src (controlMsg 2 src dest 0 (arbAt s (dest % 1024)).nextToken 0) s' ∧
      (arbAt s' (dest % 1024)).g = (arbAt s (dest % 1024)).g + cells) ∧
  (∀ (s : State) (d m cells : Nat), m < 64 →
    let a := arbAt s d
    let own := m = myId s
    (∀ i, i < 64 → (∃ w ∈ a.waiting, w.1 = (a.ptr + i) % 64) → (m + 64 - a.ptr % 64) % 64 ≤ i) →
    a.waiting.find? (fun w => w.1 == m) = some (m, cells) →
    (a.g = 0 ∨ a.g + cells ≤ s.rd F.FB_EXPRESS.EXP_CELLS 0 → ¬own ∨ voqOf s (8 * ownDest s d + 7) ≠ [] →
      ∃ s', exec (.grantArbitration d) s = .next s' ∧
        arbAt s' d = { a with
          ptr := (m + 1) % 64, g := a.g + cells, waiting := removeFirst (fun w => w.1 == m) a.waiting,
          tokens := a.tokens ++ [⟨a.nextToken, m, cells, s.clk.ns, false⟩], nextToken := (a.nextToken + 1) % 256 } ∧
        (¬own → ControlSent s m (controlMsg 2 m (ownDest s d) 0 a.nextToken 0) s' ∧ s'.fb.reqs = s.fb.reqs) ∧
        (own → s'.fb.tx = s.fb.tx ∧ reqAt s' (ownDest s d) =
          (if reqAt s (ownDest s d) = .requested then .granted else reqAt s (ownDest s d))) ∧
        { s' with fb := { s'.fb with arbs := s.fb.arbs, tx := s.fb.tx, reqs := s.fb.reqs } } = s) ∧
    (0 < a.g → s.rd F.FB_EXPRESS.EXP_CELLS 0 < a.g + cells → powerOf s d = 0 →
      exec (.grantArbitration d) s = .next s)) ∧
  (∀ (s : State) (dest token : Nat),
    (voqOf s (8 * dest + 7) ≠ [] → reqAt s dest = .requested →
      ∃ s', exec (.grant dest token) s = .next s' ∧ reqAt s' dest = .granted ∧
        (isGroup s dest = false → reaches s (dest / 1024) = true → holdsGrant s' dest = true) ∧
        { s' with fb := { s'.fb with reqs := s.fb.reqs } } = s) ∧
    (voqOf s (8 * dest + 7) = [] → dest / 1024 ≠ myId s →
      ∃ s', exec (.grant dest token) s = .next s' ∧ reqAt s' dest = .idle ∧
        ControlSent s (dest / 1024) (controlMsg 3 (myId s) dest 0 token 0) s')) ∧
  (∀ (s : State) (src dest token : Nat) (pre post : List Token) (x : Token), dest / 1024 = myId s →
    (arbAt s (dest % 1024)).tokens = pre ++ x :: post → x.module = src → x.token = token →
    (∀ y ∈ pre, ¬(y.module = src ∧ y.token = token)) →
    ∃ s', exec (.cancel src dest token) s = .next s' ∧
      arbAt s' (dest % 1024) = { arbAt s (dest % 1024) with
        g := (arbAt s (dest % 1024)).g - (if x.expired then 0 else x.cells), tokens := pre ++ post } ∧
      { s' with fb := { s'.fb with arbs := s.fb.arbs } } = s) ∧
  (∀ (s : State) (d token : Nat) (pre post : List Token) (x : Token),
    (arbAt s d).tokens = pre ++ x :: post → x.token = token → x.expired = false →
    (∀ y ∈ pre, y.token ≠ token ∨ y.expired = true) → s.clk.diesOn = true →
    ∃ s', exec (.grantExpiry d token) s = .next s' ∧
      arbAt s' d = { arbAt s d with
        g := (arbAt s d).g - x.cells, tokens := pre ++ { x with expired := true } :: post } ∧
      Sparse.get 0 s'.cnt.events 583 = min (Sparse.get 0 s.cnt.events 583 + 1) (2 ^ 64 - 1) ∧
      s'.clk.ns = max s.clk.ns (x.granted + s.rd F.FB_EXPRESS.GRANT_TIMEOUT_US 0 * 1000) ∧ s'.csr = s.csr) ∧
  (∀ (s : State),
    let old := fun (r : Residue) => r.made + s.rd F.FB_REPL_CTRL.RETRY_US 0 * 1000 ≤ s.clk.ns
    ∃ s', exec .retryVisit s = .next s' ∧ (∀ r ∈ s'.fb.retryTx, ¬old r ∧ r.owed ≠ []) ∧
      (∀ r ∈ s'.fb.retryRx, ¬old r ∧ r.owed ≠ []) ∧
      (s.fb.retryTx = [] → s.fb.retryRx = [] → s' = s) ∧
      (∀ r, s.fb.retryTx = [r] → s.fb.retryRx = [] → old r → s'.fb.retryTx = [] ∧
        Sparse.get 0 s'.cnt.events 584 = min (Sparse.get 0 s.cnt.events 584 + r.owed.length) (2 ^ 64 - 1)))

/-- R367, R368 and R371 to R375. When the twin link comes up the pair chooses its lead and the other module forms anew; a module
that takes the lead raises the epoch above every epoch it knows; TAKE, YIELD and ANNEAL act in the states that allow
them; without the link FORM_MS makes a module lead alone; a follower that loses its lead takes over, or forms anew; and
heartbeats carry the epoch on every twin lane that is UP. -/
def Obligations.TwinRolesAndEpochs : Prop :=
  let epoch := fun (s : State) => s.rd F.TN_STATUS.EPOCH 0
  let above := fun (s : State) => (max (epoch s) s.tn.heard + 1) % 2 ^ 32
  (∀ (s : State) (p : TwinPeer), modeEff s = 3 → twinLanes s ≠ [] → p.id < 64 → p.epoch < 2 ^ 32 →
    ∃ s', exec (.twinLinkUp p) s = .next s' ∧ tnLink s' = true ∧ s'.rd F.TN_STATUS.TWIN_ID 0 = p.id ∧
      tnLevel s' = agreedTwinLevel s % 4 ∧ s'.tn.heard = p.epoch ∧ s'.tn.lastBeat = s.clk.ns ∧
      (tnState s = 0 → tnState s' = 0) ∧
      (tnState s ≠ 0 → s'.tn.tx = s.tn.tx ++
        [.coat (epoch s') (s.rd F.SY_COAT_STATUS.GENERATION 0) (BitVec.ofNat 256 (coatDigest s))]) ∧
      (tnState s ≠ 0 → leadsOver s p = true → tnLead s' = true ∧ tnState s' = 2) ∧
      (tnState s ≠ 0 → leadsOver s p = false → tnLead s' = false ∧ tnState s' = 2 ∧ epoch s' = p.epoch) ∧
      OtherRegisters s s' (fun r _ => r = .TN_STATUS)) ∧
  (∀ (s : State) (a : Agent) (v : Word), Reaches s a .TN_CTRL 0 0 → bitsOf v.toNat 22 2 = 0 → modeEff s = 3 →
    ∃ s', exec (.twinEnable a v) s = .next s' ∧ s'.rd F.TN_CTRL.EN 0 = bitsOf v.toNat 0 1 ∧
      (s.rd F.TN_CTRL.EN 0 = 0 → bitsOf v.toNat 0 1 = 1 → tnState s' = 2 ∧ tnLead s' = false ∧
        s'.tn.formDue = some (s.clk.ns + s'.rd F.TN_CTRL.FORM_MS 0 * 1000000)) ∧
      (s.rd F.TN_CTRL.EN 0 = 1 → bitsOf v.toNat 0 1 = 0 → tnState s' = 0 ∧ tnLead s' = false ∧ s'.tn.formDue = none) ∧
      (s.rd F.TN_CTRL.EN 0 = bitsOf v.toNat 0 1 → s'.tn = s.tn) ∧
      OtherRegisters s s' (fun r _ => r = .TN_CTRL ∨ r = .TN_STATUS)) ∧
  (∀ (s : State) (a : Agent), Reaches s a .TN_CTRL 0 0 → modeEff s = 3 → s.rd F.TN_CTRL.EN 0 = 1 →
    (tnState s = 5 → tnLead s = false →
      ∃ s', exec (.take a) s = .next s' ∧ tnLead s' = true ∧ tnState s' = 5 ∧ epoch s' = above s ∧
        s'.tn.sending = true ∧ s'.tn.tx = s.tn.tx ++ (if tnLink s then [.exchange] else [])) ∧
    (tnState s = 2 → tnLead s = false → tnLink s = false ∨ s.tn.lost = true →
      ∃ s', exec (.take a) s = .next s' ∧ tnLead s' = true ∧ tnState s' = 1 ∧ epoch s' = above s) ∧
    (tnState s = 5 → tnLead s = true →
      ∃ s', exec (.yield a) s = .next s' ∧ tnLead s' = false ∧ tnState s' = 5 ∧ s'.tn.sending = false ∧
        s'.tn.tx = s.tn.tx ++ (if tnLink s then [.exchange] else [])) ∧
    (tnFollower s = true → tnLink s = true →
      ∃ s', exec (.anneal a) s = .next s' ∧ tnLead s' = false ∧ tnState s' = 2 ∧ s'.tn.sending = false ∧
        s'.tn.tx = s.tn.tx ++ [.coat (epoch s) (s.rd F.SY_COAT_STATUS.GENERATION 0)
          (BitVec.ofNat 256 (coatDigest s))])) ∧
  (∀ (s : State) (due : Nat), s.tn.formDue = some due → tnState s = 2 → tnLink s = false → s.clk.diesOn = true →
    ∃ s', exec .formTimeout s = .next s' ∧ s'.clk.ns = max s.clk.ns due ∧ s'.tn.formDue = none ∧
      (s.on F.TN_CTRL.AUTO_TAKE 0 = true → tnLead s' = true ∧ tnState s' = 1 ∧ epoch s' = above s ∧ s'.tn.seasoned = true) ∧
      (s.on F.TN_CTRL.AUTO_TAKE 0 = false → s'.csr = s.csr)) ∧
  (∀ s : State, tnState s = 5 → tnLead s = false →
    ∃ s', exec .leadLoss s = .next s' ∧
      (s.on F.TN_CTRL.AUTO_TAKE 0 = true → s.on F.TN_STATUS.SUSPECT 0 = false →
        tnLead s' = true ∧ tnState s' = 1 ∧ epoch s' = above s) ∧
      (s.on F.TN_CTRL.AUTO_TAKE 0 = false ∨ s.on F.TN_STATUS.SUSPECT 0 = true → tnLead s' = false ∧ tnState s' = 2 ∧
        s'.tn.lost = true) ∧
      OtherRegisters s s' (fun r _ => r = .TN_STATUS)) ∧
  (∀ s : State, tnState s ≠ 0 →
    ∃ s', exec .heartbeat s = .next s' ∧
      s'.tn.tx = s.tn.tx ++ (twinLanes s).map (fun k =>
        .heartbeat k (epoch s) (s.on F.TN_STATUS.SUSPECT 0)) ∧ { s' with tn := { s'.tn with tx := s.tn.tx } } = s) ∧
  (∀ (s : State) (e : Nat) (suspect : Bool), tnState s ≠ 0 → e < 2 ^ 32 →
    ∃ s', exec (.heartbeatReceived e suspect) s = .next s' ∧ s'.tn.heard = e ∧ s'.tn.lastBeat = s.clk.ns ∧
      tnState s' = tnState s ∧ (suspect = true → s'.on F.TN_STATUS.SUSPECT 0 = true) ∧
      (tnLead s = false → tnLead s' = false ∧ epoch s' = e) ∧
      (tnLead s = true → tnState s = 5 → epoch s < e → tnLead s' = false ∧ epoch s' = e) ∧
      (tnLead s = true → e ≤ epoch s → tnLead s' = true ∧ epoch s' = epoch s) ∧
      OtherRegisters s s' (fun r _ => r = .TN_STATUS))

/-- R380, R386, R387, R389 to R392 and R513. Digest records are paired by stream and sequence: equal ones match, others are a divergence, and
DIV_N of them within DIV_T_MS set SUSPECT; unpaired ones leave after CMP_US. Anneal goes from the coat's match through the
copy to PAIRED. Strict buckets follow the lead. A coat mismatch that stands for 10 s sets SUSPECT, and clearing SUSPECT
restarts the count. -/
def Obligations.TwinRecordsAndAnneal : Prop :=
  let suspect := fun (s : State) => s.on F.TN_STATUS.SUSPECT 0
  let one := fun (s s' : State) (e : Nat) =>
    Sparse.get 0 s'.cnt.events e = min (Sparse.get 0 s.cnt.events e + 1) (2 ^ 64 - 1)
  (∀ (s : State) (a : Agent), Reaches s a .TN_STATUS 0 0 → a = .fn 0 → suspect s = true →
    ∃ s', exec (.suspectClear false) s = .next s' ∧ suspect s' = false ∧
      s'.tn = { s.tn with divs := [], tx := s.tn.tx ++ (if tnLink s then [.suspect false] else []) }) ∧
  (∀ s : State, ∃ s', exec (.suspectClear true) s = .next s' ∧ suspect s' = false ∧
    s'.tn = { s.tn with divs := [] } ∧ OtherRegisters s s' (fun r _ => r = .TN_STATUS) ∧
    { s' with csr := s.csr, tn := s.tn } = s) ∧
  (∀ (s : State) (bs : List (Nat × Nat)), tnLink s = true → tnState s ≠ 0 →
    (tnLead s = true → ∃ s' l, exec (.strictMeterSync bs) s = .next s' ∧ s'.tn.tx = s.tn.tx ++ [.strict l] ∧
      (∀ e, e ∈ l ↔ ∃ m, (e.1, m) ∈ s.q.meters ∧ e.1 < 8192 ∧ m.type = 4 ∧ e.2 = (m.refill s.clk.ns).c) ∧
      { s' with tn := { s'.tn with tx := s.tn.tx } } = s) ∧
    (tnLead s = false → ∃ s', exec (.strictMeterSync bs) s = .next s' ∧
      (∀ m, (∀ b ∈ bs, b.1 ≠ m) → meterAt s' m = meterAt s m) ∧
      (∀ m c, bs = [(m, c)] → m < 8192 → (meterAt s m).type = 4 →
        meterAt s' m = { meterAt s m with c := c, remC := 0, last := s.clk.ns }) ∧
      { s' with q := { s'.q with meters := s.q.meters } } = s)) ∧
  (∀ (s : State) (stream rseq : Nat) (d : BitVec 32), tnLead s = true → tnLink s = true →
    let mate := fun (x : Digest) => x.own = true ∧ x.stream = stream ∧ x.rseq = rseq
    (∀ pre x post, s.tn.digests = pre ++ x :: post → mate x → (∀ y ∈ pre, ¬mate y) →
      ∃ s', exec (.digestRecord stream rseq d) s = .next s' ∧ s'.tn.digests = pre ++ post ∧
        (x.digest = d → one s s' 716 ∧ s'.csr = s.csr) ∧
        (x.digest ≠ d → one s s' 717 ∧ s'.tn.divTotal = s.tn.divTotal + 1 ∧ s'.tn.lastDivAt = s.clk.ns ∧
          let recent := (s.tn.divs ++ [s.clk.ns]).filter
            (fun t => decide (s.clk.ns < t + s.rd F.TN_DIV.DIV_T_MS 0 * 1000000))
          s'.tn.divs = recent ∧ (s.rd F.TN_DIV.DIV_N 0 ≤ recent.length → suspect s' = true) ∧
          (recent.length < s.rd F.TN_DIV.DIV_N 0 → s'.csr = s.csr))) ∧
    ((∀ y ∈ s.tn.digests, ¬mate y) → s.tn.digests.length < 65536 →
      ∃ s', exec (.digestRecord stream rseq d) s = .next s' ∧
        s'.tn = { s.tn with digests := s.tn.digests ++ [⟨false, stream, rseq, d, s.clk.ns⟩] } ∧
        { s' with tn := s.tn } = s)) ∧
  (∀ (s : State) (own : Bool) (stream rseq : Nat) (pre post : List Digest) (x : Digest),
    s.tn.digests = pre ++ x :: post → x.own = own → x.stream = stream → x.rseq = rseq → s.clk.diesOn = true →
    (∀ y ∈ pre, ¬(y.own = own ∧ y.stream = stream ∧ y.rseq = rseq)) →
    ∃ s', exec (.compareTimeout own stream rseq) s = .next s' ∧ s'.tn.digests = pre ++ post ∧ one s s' 718 ∧
      s'.clk.ns = max s.clk.ns (x.since + s.rd F.TN_DIV.CMP_US 0 * 1000)) ∧
  (∀ (s : State) (e g : Nat) (d : BitVec 256), tnLink s = true → tnState s = 2 ∨ lateAnneal s = true → e < 2 ^ 32 →
    g < 2 ^ 32 →
    ∃ s', exec (.annealMatch e g d) s = .next s' ∧ s'.tn.twinDigest = some d.toNat ∧
      (d.toNat ≠ coatDigest s → one s s' 715 ∧ s'.tn.mismatch ≠ none ∧ s'.tn.sending = false) ∧
      (d.toNat = coatDigest s → tnLead s = false → tnState s' = 3 ∧ s'.rd F.SY_COAT_STATUS.GENERATION 0 = g ∧
        s'.rd F.TN_STATUS.EPOCH 0 = e ∧ s'.tn.applied = []) ∧
      (d.toNat = coatDigest s → tnLead s = true → s'.tn.sending = true ∧ s'.tn.copied = s.clk.ns ∧ tnState s' = 2 ∧
        (∃ before, s'.tn.tx = before ++ (annealItems s).map TwinMsg.anneal ∧ ∀ m ∈ before, m.rank ≠ 5) ∧
        (lateAnneal s = false → s'.tn.tx = s.tn.tx.filter (·.rank != 5) ++ (annealItems s).map TwinMsg.anneal)) ∧
      OtherRegisters s s' (fun r _ => r = .TN_STATUS ∨ r = .SY_COAT_STATUS)) ∧
  (∀ (s : State), tnState s = 3 → tnLead s = false →
    (∃ s', exec .annealCopyComplete s = .next s' ∧ tnState s' = 4 ∧ s'.tn = { s.tn with copied := s.clk.ns } ∧
      OtherRegisters s s' (fun r _ => r = .TN_STATUS)) ∧
    (∀ n i next recS any hist, ∃ s', exec (.annealTransfer (.stream n i next recS any hist)) s = .next s' ∧
      (streamAt s' i).nextSeq = next ∧ (streamAt s' i).recSeq = recS ∧ (streamAt s' i).takeAny = any ∧
      (streamAt s' i).history = hist ∧ (streamAt s' i).desc = (streamAt s i).desc ∧
      { s' with tn := { s'.tn with streams := s.tn.streams } } = s) ∧
    (∀ m c, ∃ s', exec (.annealTransfer (.bucket m c)) s = .next s' ∧ (meterAt s' m).c = c ∧
      { s' with q := { s'.q with meters := s.q.meters } } = s) ∧
    (∀ r : ChangeRec, (∃ x ∈ s.tn.applied, x.1 = r.table ∧ x.2.1 = fitKey s r.table r.key ∧ r.number < x.2.2) →
      exec (.annealTransfer (.entry r)) s = .next s) ∧
    (∀ r : ChangeRec, (∀ x ∈ s.tn.applied, ¬(x.1 = r.table ∧ x.2.1 = fitKey s r.table r.key ∧ r.number < x.2.2)) →
      let items := fun (t : State) => itemsOf t r.table (.nibs (fitKey s r.table r.key))
      ∃ s', exec (.annealTransfer (.entry r)) s = .next s' ∧
        ((∀ e ∈ items s, inCoat e.2.coat 0 = true ∨ inCoat e.2.coat 1 = true) →
          ∀ e ∈ items s', e.2.data = r.data ∧ e.2.ts = r.ts) ∧ s'.csr = s.csr)) ∧
  (∀ s : State, suspect s = false → tnLink s = true → copyDone s = true → s.clk.diesOn = true →
    ∃ s', exec .paired s = .next s' ∧ tnState s' = 5 ∧ s'.tn.seasoned = true ∧ s'.tn.divTotal = 0 ∧
      s'.tn.lastDiv = none ∧ s'.clk.ns = max s.clk.ns (max s.tn.copied s.tn.lastDivAt + 100000000)) ∧
  (∀ (s : State) (d : BitVec 256), tnLink s = true → tnState s ≠ 0 →
    ∃ s', exec (.twinRecoatDigest d) s = .next s' ∧ s'.tn.twinDigest = some d.toNat ∧
      (d.toNat = coatDigest s → s'.tn.mismatch = none) ∧
      (d.toNat ≠ coatDigest s → one s s' 715 ∧ s'.tn.mismatch = some (s.tn.mismatch.getD s.clk.ns)) ∧ s'.csr = s.csr) ∧
  (∀ (s : State) (t : Nat), s.tn.mismatch = some t → tnState s = 5 → tnLead s = true → s.clk.diesOn = true →
    ∃ s', exec .coatMismatchTimeout s = .next s' ∧ suspect s' = true ∧ s'.clk.ns = max s.clk.ns (t + 10000000000) ∧
      OtherRegisters s s' (fun r _ => r = .TN_STATUS))

/-- R377, R384 and R385. A stream whose oldest held packet has waited HOLD_US releases what it holds; one that has passed nothing for
RESET_MS takes any sequence number next; the stream window reads a stream, commits a clamped descriptor, or resets the
stream. -/
def Obligations.ProtectedStreams : Prop :=
  (∀ (s : State) (n : Nat) (h : Held) (hs : List Held), (streamAt s n).held = h :: hs → s.clk.diesOn = true →
    ∃ s', exec (.holdExpiry n) s = .next s' ∧ (streamAt s' n).held = [] ∧
      (streamAt s' n).released = some (((h :: hs).getLast?.getD h).rseq) ∧
      (∀ m, m ≠ n → streamAt s' m = streamAt s m) ∧
      Sparse.get 0 s'.cnt.events 712 = min (Sparse.get 0 s.cnt.events 712 + 1) (2 ^ 64 - 1) ∧
      (∀ x ∈ h :: hs, s'.clk.ns ≤ max s.clk.ns (x.since + (streamAt s n).holdUs * 1000)) ∧ s'.csr = s.csr) ∧
  (∀ (s : State) (n : Nat), (streamAt s n).en = true → (streamAt s n).func ≠ 0 → (streamAt s n).takeAny = false →
    s.clk.diesOn = true →
    ∃ s', exec (.recoveryReset n) s = .next s' ∧
      streamAt s' n = { streamAt s n with takeAny := true, history := [] } ∧
      (∀ m, m ≠ n → streamAt s' m = streamAt s m) ∧
      s'.clk.ns = max s.clk.ns ((streamAt s n).lastPass + (streamAt s n).resetMs * 1000000) ∧
      Sparse.get 0 s'.cnt.events 711 = min (Sparse.get 0 s.cnt.events 711 + 1) (2 ^ 64 - 1) ∧ s'.csr = s.csr) ∧
  (∀ (s : State) (a : Agent) (index : Nat), Reaches s a .TN_STREAM_WIN 0 0 → windowBusy s .TN_STREAM_WIN 0 = false →
    let n := index % 2 ^ 16
    let t := streamAt s n
    let d := clampStream (s.rd F.TN_STREAM_WIN.DATA0 0)
    let shows := fun (s' : State) => s'.rd F.TN_STREAM_WIN.INDEX 0 = n ∧
      s'.rd F.TN_STREAM_WIN.DATA0 0 = (streamAt s' n).desc.toNat ∧
      s'.rd F.TN_STREAM_WIN.DATA1 0 = streamWord (streamAt s' n) % 2 ^ 64 ∧
      OtherRegisters s s' (fun r _ => r = .TN_STREAM_WIN) ∧ ∀ m, m ≠ n → streamAt s' m = streamAt s m
    (∃ s', exec (.streamRead a index) s = .next s' ∧ shows s' ∧ streamAt s' n = t) ∧
    (∃ s', exec (.streamWrite a index) s = .next s' ∧ shows s' ∧ (streamAt s' n).desc = BitVec.ofNat 64 d ∧
      (streamAt s' n).recSeq = t.recSeq ∧ (streamAt s' n).nextSeq = t.nextSeq ∧
      let ordered := bitAt d 0 && bitAt d 3
      (streamAt s' n).held = (if ordered then t.held else []) ∧
      (ordered = true → (streamAt s' n).released =
        (if t.ordered then t.released else if t.takeAny then none else some t.recSeq))) ∧
    (∃ s', exec (.streamReset a index) s = .next s' ∧ shows s' ∧ (streamAt s' n).takeAny = true ∧
      (streamAt s' n).nextSeq = 0 ∧ (streamAt s' n).held = [] ∧ (streamAt s' n).desc = t.desc))

/-- R398 to R402, R406, R407, R411 and R418 to R424. A mirror copy becomes a capture record whose CAP_TIME never goes back: in
the open segment while there is room, else in the next segment; another packet is a misuse. A segment with records is sealed by FLUSH, SEAL_MS and SEAL_FRESCO, with the digest that the next one
names as PREV. NEW_RING begins a ring while EN is 0. Enabling a target finds NEXT and BYTES in the Lath's record, or
starts at 0, and retires one that is worn. The Lath's flash record is written at a seal and again at hold-up's end. READ, VERIFY and the rebuilt
directory find a segment by its sequence; a read that its target fails answers 2. -/
def Obligations.CaptureRecordsAndSeals : Prop :=
  let runs := fun (s : State) => frState s = 2 ∨ frState s = 4
  let sealedAs := fun (s : State) (g : Seg) (flags : Nat) =>
    let h := { g with flags := flags, drops := s.fr.drops, prev := s.fr.sealedDigest }
    ({ h with digest := segDigest h } : Seg)
  let seals := fun (s : State) (g : Seg) (flags : Nat) (s' : State) =>
    s'.fr.opened = none ∧ s'.fr.lastSealed = g.seq ∧ s'.fr.nextSeq = g.seq + 1 ∧
      ((∀ t, s.rd F.FR_TARGET.LDEST t ≠ 160) → s'.fr.drops = 0) ∧
      s'.fr.sealedDigest = (sealedAs s g flags).digest ∧ ∃ x ∈ s'.fr.segs, x.seg = sealedAs s g flags
  let worn := fun (s : State) => ∃ t, t < 72 ∧ tgState s t = 1 ∧ s.rd F.FR_CTRL.RETIRE_W 0 ≤ s.rd F.FR_TARGET.W t
  let idle := fun (s s' : State) => s'.fr = s.fr ∧ (¬worn s → AccessOnly s s') ∧
    OtherRegisters s s' (fun r _ => r = .FR_CTRL ∨ worn s ∧ (r = .FR_TARGET ∨ r = .FR_STATUS ∨ r = .LT_LIFE_HEAD))
  (∀ (s t : State) (path : List Nat) (x : Queued), runs s → choosePort s 160 = (t, .head path x) →
    Clean s x →
    let c := captureRec s x (capTime s)
    let n := c.bytes.length
    stageRoom s n = true →
    (Tk.mirror x.pkt.ticket = false → tkGet x.pkt.ticket 64 0 8 ≠ 0xF6 →
      ∃ s', exec .frescoRecord s = .next s' ∧ s'.fr.segs = s.fr.segs ∧ s'.fr.opened = s.fr.opened ∧
        Sparse.get 0 s'.cnt.events 768 = min (Sparse.get 0 s.cnt.events 768 + 1) (2 ^ 64 - 1)) ∧
    (Tk.mirror x.pkt.ticket = true → ∃ s', exec .frescoRecord s = .next s' ∧ s'.fr.lastCap = c.time ∧
      s.fr.lastCap ≤ c.time ∧ s.clk.ptp ≤ c.time) ∧
    (Tk.mirror x.pkt.ticket = true →
    (∀ g, s.fr.opened = some g → g.used + n ≤ segArea →
      ∃ s', exec .frescoRecord s = .next s' ∧ s'.fr.segs = s.fr.segs ∧
        s'.fr.opened = some { g with records := g.records ++ [c], used := g.used + n }) ∧
    (s.fr.opened = none →
      ∃ s', exec .frescoRecord s = .next s' ∧ s'.fr.segs = s.fr.segs ∧
        s'.fr.opened = some { newSeg s with records := [c], used := n }) ∧
    (∀ g, s.fr.opened = some g → segArea < g.used + n → g.records ≠ [] →
      ∃ s' g', exec .frescoRecord s = .next s' ∧ s'.fr.opened = some g' ∧ g'.records = [c] ∧ g'.used = n ∧
        g'.seq = g.seq + 1 ∧ s'.fr.lastSealed = g.seq ∧
        ∃ y ∈ s'.fr.segs, y.seg.seq = g.seq ∧ y.seg.records = g.records ∧ y.seg.flags = 0))) ∧
  (∀ (s : State) (g : Seg), runs s → s.fr.opened = some g → g.records ≠ [] → s.clk.diesOn = true →
    ∃ s', exec .sealTimeout s = .next s' ∧ seals s g 0 s' ∧
      s'.clk.ns = max s.clk.ns (g.firstAt + s.rd F.FR_CTRL.SEAL_MS 0 * 1000000)) ∧
  (∀ (s : State) (a : Agent), Reaches s a .FR_CTRL 0 0 →
    (∀ g, runs s → s.fr.opened = some g → g.records ≠ [] →
      ∃ s', exec (.frescoFlush a) s = .next s' ∧ seals s g 4 s' ∧ s'.clk = s.clk) ∧
    (s.fr.opened = none → ∃ s', exec (.frescoFlush a) s = .next s' ∧ idle s s') ∧
    (s.on F.FR_CTRL.EN 0 = false →
      ∃ s', exec (.newRing a) s = .next s' ∧ s'.fr.ringId = lifeSeconds s ∧ s'.fr.nextSeq = 1 ∧ s'.fr.lastSealed = 0 ∧
        s'.fr.opened = none ∧ s'.fr.segs = [] ∧ s'.fr.directory = [] ∧ s'.rd F.FR_DURABLE.SEQ 0 = 0 ∧
        s'.rd F.FR_STATUS.BREAKS 0 = 0 ∧ s'.fr.sram.map (·.ringId) = some (lifeSeconds s) ∧ s'.fr.flash = s.fr.flash) ∧
    (s.on F.FR_CTRL.EN 0 = true → ∃ s', exec (.newRing a) s = .next s' ∧ idle s s')) ∧
  (∀ (s : State) (a : Agent) (t : Nat) (v : Word), Reaches s a .FR_TARGET t 0 → privOf s a = .owner →
    (bitsOf v.toNat 0 2 = 1 ∧ t < 8 ∨ bitsOf v.toNat 0 2 = 2 ∧ 8 ≤ t) → targetOverlaps s t = false →
    s.rd F.FR_TARGET.FIRST_SLOT t + s.rd F.FR_TARGET.SLOTS t ≤ 2 ^ 30 → s.on F.FR_TARGET.EN t = false →
    (∀ x ∈ s.fr.segs, x.stage ≠ .waiting) → s.fr.due = none →
    ∃ s', exec (.targetEnable a t v) s = .next s' ∧ s'.on F.FR_TARGET.EN t = true ∧
      s'.rd F.FR_TARGET.KIND t = bitsOf v.toNat 0 2 ∧ s'.rd F.FR_TARGET.W t = wearFigure s' t ∧
      tgState s' t = (if s.rd F.FR_CTRL.RETIRE_W 0 ≤ wearFigure s' t then 3 else 1) ∧
      (tgState s' t = 1 → runs s → frState s' = 2) ∧
      (s.fr.sram = none → s'.rd F.FR_TARGET.NEXT t = 0 ∧ s'.rd F.FR_TARGET.BYTES t = 0) ∧
      (∀ c r, s.fr.sram = some c → (c.targets.find? (fun x => x.1 == t)) = some (t, r) →
        let same := r.ringId = s.fr.ringId ∧ r.kind = s'.rd F.FR_TARGET.KIND t ∧ r.nsid = s'.rd F.FR_TARGET.NSID t ∧
          r.firstSlot = s.rd F.FR_TARGET.FIRST_SLOT t ∧ r.slots = s.rd F.FR_TARGET.SLOTS t
        (same → s'.rd F.FR_TARGET.NEXT t = r.next % 2 ^ 30 ∧ s'.rd F.FR_TARGET.BYTES t = r.bytes % 2 ^ 64) ∧
        (¬same → s'.rd F.FR_TARGET.NEXT t = 0 ∧ s'.rd F.FR_TARGET.BYTES t = 0))) ∧
  (∀ s : State, runs s →
    (holdup s = false → ∃ s', exec .sealFresco s = .next s' ∧ frState s' = 3 ∧ s'.fr.sealAt = some s.clk.ns ∧
      s'.fr.opened = s.fr.opened ∧ s'.fr.segs = s.fr.segs ∧ s'.fr.flash = s.fr.flash) ∧
    (∀ g, holdup s = true → s.fr.opened = some g → g.records ≠ [] →
      ∃ s' c, exec .sealFresco s = .next s' ∧ frState s' = 3 ∧ s'.fr.sealAt = some s.clk.ns ∧ seals s g 1 s' ∧
        s'.fr.flash = some c ∧ s'.fr.sram = some c ∧ c.atSeal = true ∧ c.lastSealed = g.seq)) ∧
  (∀ (s : State) (t : Nat), frState s = 3 → s.fr.sealAt = some t →
    (holdup s = true → ∃ s', exec .holdupEnd s = .next s' ∧ s'.fr.flash = some (captureNow s true) ∧
      s'.fr.sram = some (captureNow s true) ∧ s'.fr.segs = s.fr.segs ∧ s'.csr = s.csr ∧
      (s.fr.segs ≠ [] → s.clk.diesOn = true →
        s'.clk.ns = max s.clk.ns (t + s.rd F.FR_CTRL.HOLDUP_US 0 * 1000))) ∧
    (∃ s', exec .sealRelease s = .next s' ∧ s'.fr.sealAt = none ∧ (∀ c, s'.fr.sram = some c → c.atSeal = false) ∧
      frState s' = (if (List.range 72).any (fun t => tgState s t == 1) then 2 else 4) ∧
      OtherRegisters s s' (fun r _ => r = .FR_STATUS))) ∧
  (∀ (s : State) (a : Agent) (bad : List Nat), Reaches s a .FR_READ 0 0 → privOf s a = .owner →
    let first := s.rd F.FR_READ.SEQ_FIRST 0
    let found := findSeg s bad first
    (∃ s', exec (.segmentRead a bad) s = .next s' ∧ s'.rd F.FR_READ.RESULT 0 = found.1 ∧
      s'.rd F.FR_READ.BUSY 0 = s.rd F.FR_READ.BUSY 0 ∧ s'.fr = s.fr ∧
      (found.2 = none → s'.host.mem = s.host.mem) ∧
      (∀ g, found.2 = some g → busMaster s 0 = true →
        hostBytes s' (s'.rd F.FR_READ.HOST_ADDR 0) (segBytes g).length = segBytes g)) ∧
    (∀ x ∈ s.fr.segs, x.seg.seq = first → found.1 = 0) ∧
    (∃ s', exec (.verify a bad) s = .next s' ∧ s'.fr = s.fr ∧ s'.host.mem = s.host.mem ∧
      (s'.rd F.FR_READ.RESULT 0 = 0 ↔ ∀ k, first ≤ k → k ≤ s'.rd F.FR_READ.SEQ_LAST 0 →
        ∃ g, findSeg s bad k = (0, some g) ∧ g.seq = k ∧ magicGood g = true ∧
          (k < s'.rd F.FR_READ.SEQ_LAST 0 → ∃ h, findSeg s bad (k + 1) = (0, some h) ∧ readDigest g = h.prev)))) ∧
  (∀ s : State,
    let shows := fun (k t slot : Nat) (g : Seg) => (pairKey t slot, some g) ∈ s.fr.stored ∧ g.ringId = s.fr.ringId ∧
      s.on F.FR_TARGET.EN t = true ∧ g.seq % 2 ^ 23 = k
    ∃ s', exec .directoryRebuild s = .next s' ∧ s'.on F.FR_STATUS.DIR_READY 0 = true ∧
      (∀ k t slot g, shows k t slot g → (∀ t' slot' g', shows k t' slot' g' → g' = g ∧ t' = t ∧ slot' = slot ∨ g'.seq < g.seq) →
        (∀ e, Sparse.get none s.fr.directory k = some e → e.seq < g.seq) →
        Sparse.get none s'.fr.directory k = some (dirEntry g (s.rd F.FR_TARGET.FIRST_SLOT t + slot) t true)) ∧
      (∀ k e, Sparse.get none s.fr.directory k = some e → (∀ t slot g, shows k t slot g → g.seq ≤ e.seq) →
        Sparse.get none s'.fr.directory k = some e) ∧
      (∀ k, (∀ t slot g, ¬shows k t slot g) → Sparse.get none s'.fr.directory k = Sparse.get none s.fr.directory k) ∧
      OtherRegisters s s' (fun r _ => r = .FR_STATUS))

/-- R396, R408 to R410 and R412 to R417. A target's writes go from the zeros over its slot's header block to the record
area's eight commands and then to the header block; with that the segment stands on its target, is durable in sequence, and
BYTES and W grow. A failed or timed-out command is retried once, then its target fails and its segments wait for others; a
removed controller fails its targets. A RoCE segment is complete when its packets are acknowledged; a NAK or 1 ms without an
acknowledgement sends again from the first packet not acknowledged, and the eighth time fails the target. -/
def Obligations.TargetsTakeSegmentsDurably : Prop :=
  let holds := fun (s : State) (x : SealedSeg) => s.fr.segs.find? (fun y => y.seg.seq == x.seg.seq) = some x
  let failed := fun (s' : State) (t : Nat) => tgState s' t = 2 ∧
    ∀ y ∈ s'.fr.segs, y.target = t → y.stage = .done ∨ y.stage = .waiting
  let durable := fun (s : State) (x : SealedSeg) (s' : State) => s'.rd F.FR_DURABLE.SEQ 0 = x.seg.seq ∧
    s'.rdWide F.FR_DIGEST.DIGEST 0 = x.seg.digest ∧
    s'.rd F.FR_TARGET.BYTES x.target = (s.rd F.FR_TARGET.BYTES x.target + 8388608) % 2 ^ 64 ∧
    s'.rd F.FR_TARGET.W x.target = wearFigure s' x.target ∧
    (∃ g, Sparse.get none s'.fr.stored (pairKey x.target x.slot) = some g ∧ g.seq = x.seg.seq ∧
      g.records = x.seg.records ∧ g.prev = x.seg.prev ∧ (bufferBad s x.seg.buffer = false → g = x.seg)) ∧
    Sparse.get none s'.fr.directory (x.seg.seq % 2 ^ 23) =
      some (dirEntry x.seg (s.rd F.FR_TARGET.FIRST_SLOT x.target + x.slot) x.target true) ∧
    s'.fr.sram.map (·.durable) = some x.seg.seq
  let write := fun (s : State) (x : SealedSeg) (p : NvmePart) =>
    let bytes : Nat × Nat := match p with
      | .zero => (0, 4096)
      | .area i => (4096 + i * 1048576, min 1048576 (8384512 - i * 1048576))
      | .header => (0, 4096)
    let block := if Config.bigBlocks x.target then 4096 else 512
    Out.nvme ⟨x.target, s.rd F.FR_TARGET.NSID x.target, 1, true,
      s.rd F.FR_TARGET.BASE x.target + (8388608 * x.slot + bytes.1) / block, bytes.2 / block, x.seg.seq, p⟩
  let begun := fun (s : State) (ps : List NvmePart) => SegStage.nvme (ps.map (fun p => ⟨p, false, s.clk.ns⟩))
  let area : List NvmePart := [.area 0, .area 1, .area 2, .area 3, .area 4, .area 5, .area 6, .area 7]
  (∀ (s : State) (x : SealedSeg) (l : List NvmeOpen) (c : NvmeOpen), holds s x → x.stage = .nvme l →
    l.find? (fun d => d.part == c.part) = some c →
    let t := x.target
    let q := x.seg.seq
    let rest := l.filter (fun d => d.part != c.part)
    let again := fun (s' : State) => s'.out = s.out ++ [write s x c.part] ∧ s'.csr = s.csr ∧
      holds s' { x with stage := .nvme (updateFirst (fun d => d.part == c.part)
        (fun d => { d with retried := true, since := s'.clk.ns }) l) }
    let only := fun (s' : State) => { s' with out := s.out, fr := { s'.fr with segs := s.fr.segs } } = s
    (c.part = .zero → ∃ s', exec (.nvmeCompletion t q .zero true) s = .next s' ∧
      holds s' { x with stage := begun s area } ∧ s'.out = s.out ++ area.map (write s x) ∧ only s') ∧
    (∀ i, c.part = .area i → rest ≠ [] → ∃ s', exec (.nvmeCompletion t q (.area i) true) s = .next s' ∧
      holds s' { x with stage := .nvme rest } ∧ s'.out = s.out ∧ only s') ∧
    (∀ i, c.part = .area i → rest = [] → ∃ s', exec (.nvmeCompletion t q (.area i) true) s = .next s' ∧
      holds s' { x with stage := begun s [.header] } ∧ s'.out = s.out ++ [write s x .header] ∧ only s') ∧
    (c.retried = false → ∃ s', exec (.nvmeCompletion t q c.part false) s = .next s' ∧ again s' ∧ s'.clk = s.clk) ∧
    (c.retried = true → ∃ s', exec (.nvmeCompletion t q c.part false) s = .next s' ∧ failed s' t) ∧
    (s.clk.diesOn = true → ∃ s', exec (.nvmeTimeout t q c.part) s = .next s' ∧
      s'.clk.ns = max s.clk.ns (c.since + 2000000000) ∧ (c.retried = false → again s') ∧
      (c.retried = true → failed s' t))) ∧
  (∀ (s : State) (x : SealedSeg) (rest : List SealedSeg) (c : NvmeOpen), s.fr.segs = x :: rest →
    x.stage = .nvme [c] → c.part = .header → (∀ y ∈ rest, y.stage ≠ .waiting ∧ y.stage ≠ .done) →
    x.seg.seq < 2 ^ 64 → x.seg.digest < 2 ^ 256 →
    ∃ s', exec (.nvmeCompletion x.target x.seg.seq .header true) s = .next s' ∧ s'.fr.segs = rest ∧ durable s x s' ∧
      s'.fr.flash = s.fr.flash ∧ s'.out = s.out) ∧
  (∀ (s : State) (root : Nat),
    let removed := fun (t : Nat) => t < 8 ∧ s.on F.FR_TARGET.EN t = true ∧ s.rd F.FR_TARGET.KIND t = 1 ∧
      s.rd F.FR_TARGET.ROOT t = root
    ∃ s', exec (.nvmeRemoval root) s = .next s' ∧ (∀ t, removed t → tgState s' t = 2) ∧
      ∀ t, ¬removed t → tgState s' t = tgState s t) ∧
  (∀ (s : State) (x : SealedSeg) (first old : Nat), s.fr.segs = [x] → x.stage = .roce first old →
    let t := x.target
    let eq := s.rd F.FR_TARGET.EQ t
    let d := s.rd F.FR_TARGET.LDEST t
    let frames := fun (n : Nat) => (List.range (2049 - n)).map (fun k => roceFrame s t x.seg x.slot (first + n + k) (n + k))
    let room := fun (n : Nat) => powerOf s d = 0 ∧ attached s (.eq eq) = true ∧ chainPort s (.eq eq) = some d ∧
      depthOf (eqOf s eq) + sumOf ((frames n).map List.length) ≤ depthLimit s (s.rd F.VT_EQ.TPROF eq) 0
    let resent := fun (n : Nat) (s' : State) => (roceAt s' t).sentAt = s'.clk.ns ∧
      s'.fr.segs = [{ x with stage := .roce first n }] ∧
      ∃ l, eqOf s' eq = eqOf s eq ++ l ∧ (l.map (·.pkt.data)).Sublist (frames n) ∧
        (room n → l.map (·.pkt.data) = frames n)
    (∀ psn, let n := acked first psn
      (n ≤ old → exec (.roceAck t psn .ack) s = .next s) ∧
      (old < n → n < 2049 → ∃ s', exec (.roceAck t psn .ack) s = .next s' ∧
        s'.fr.segs = [{ x with stage := .roce first n }] ∧ (roceAt s' t).retries = 0 ∧
        (roceAt s' t).nextPsn = (roceAt s t).nextPsn ∧ { s' with fr := s.fr } = s) ∧
      (old < n → n = 2049 → x.seg.seq < 2 ^ 64 → x.seg.digest < 2 ^ 256 →
        ∃ s', exec (.roceAck t psn .ack) s = .next s' ∧ s'.fr.segs = [] ∧ durable s x s')) ∧
    (∀ psn, let n := acked first ((psn + 2 ^ 24 - 1) % 2 ^ 24)
      (old < n → n < 2049 → ∃ s', exec (.roceAck t psn .nakSeq) s = .next s' ∧ resent n s' ∧ (roceAt s' t).retries = 1) ∧
      (n ≤ old → (roceAt s t).retries < 7 → ∃ s', exec (.roceAck t psn .nakSeq) s = .next s' ∧ resent old s' ∧
        (roceAt s' t).retries = (roceAt s t).retries + 1) ∧
      (n ≤ old → 7 ≤ (roceAt s t).retries → ∃ s', exec (.roceAck t psn .nakSeq) s = .next s' ∧ failed s' t)) ∧
    (s.clk.diesOn = true → ∃ s', exec (.roceAckTimeout t) s = .next s' ∧
      s'.clk.ns = max s.clk.ns ((roceAt s t).sentAt + 1000000) ∧
      ((roceAt s t).retries < 7 → resent old s' ∧ (roceAt s' t).retries = (roceAt s t).retries + 1) ∧
      (7 ≤ (roceAt s t).retries → failed s' t))) ∧
  (∀ (s : State) (t p : Nat), t < 8 → s.on F.FR_TARGET.EN t = true → s.rd F.FR_TARGET.KIND t = 1 →
    ∃ s', exec (.wearPoll t p) s = .next s' ∧ Sparse.get 0 s'.fr.wearPct t = p ∧
      s'.rd F.FR_TARGET.W t = wearFigure s' t ∧ min 1023 (p * 1024 / 100) ≤ s'.rd F.FR_TARGET.W t ∧
      (tgState s t = 1 → tgState s' t = (if s.rd F.FR_CTRL.RETIRE_W 0 ≤ s'.rd F.FR_TARGET.W t then 3 else 1)) ∧
      (tgState s t = 1 → tgState s' t = 3 →
        s'.rd F.LT_LIFE_HEAD.HEAD 0 = (s.rd F.LT_LIFE_HEAD.HEAD 0 + 1) % 256) ∧
      OtherRegisters s s' (fun r i => r = .FR_TARGET ∧ i = t ∨ r = .FR_STATUS ∨ r = .LT_LIFE_HEAD))

/-- R425 to R428, R438, R441, R443 and R445. START runs or arms an IDLE channel and RESET makes a stopped one IDLE, both with the same clearing
and loading; KILL stops a channel in any state and drops its moves; a doorbell wakes a parked channel or is remembered by
one that runs or waits, and a realm's doorbell reaches its own channels alone; software's commands to channels 126 and
127 do nothing while twin operation is enabled. A timer starts when it is enabled, and each tick releases the channels
that wait for it and starts the ones armed on it. -/
def Obligations.TrowelChannelsAndTimers : Prop :=
  let keeps := fun (s : State) (c : Nat) (s' : State) =>
    (∀ d, d ≠ c → twChan s' d = twChan s d) ∧ s'.tw.timers = s.tw.timers ∧
      OtherRegisters s s' (fun r i => i = c ∧ (r = .TW_CH_CTRL ∨ r = .TW_CH_COUNT ∨ r = .TW_CH_STATUS) ∨ r = .TW_DOORBELL)
  let cleared := fun (s : State) (c : Nat) (s' : State) =>
    s'.rd F.TW_CH_COUNT.REMAIN c = s.rd F.TW_CH_COUNT.RELOAD c ∧ s'.rd F.TW_CH_STATUS.LOOP_I c = 0 ∧
      s'.rd F.TW_CH_STATUS.DB_PEND c = 0 ∧ s'.rd F.TW_CH_STATUS.INFLIGHT c = 0 ∧
      (twChan s' c).pc = s.rd F.TW_CH_PC.PC c * 8 ∧ (twChan s' c).openLoop = none ∧ (twChan s' c).moves = [] ∧
      (twChan s' c).signals = 0 ∧ keeps s c s'
  let started := fun (s : State) (c : Nat) (s' : State) => cleared s c s' ∧
    (s'.rd F.TW_CH_CTRL.START_EV c = 0 → twState s' c = 2 ∧ (twChan s' c).wait = none) ∧
    (s'.rd F.TW_CH_CTRL.START_EV c = 1 → twState s' c = 1 ∧
      (twChan s' c).wait = some (.timer (s'.rd F.TW_CH_CTRL.START_SRC c))) ∧
    (s'.rd F.TW_CH_CTRL.START_EV c = 2 → twState s' c = 1 ∧
      (twChan s' c).wait = some (.signal (s'.rd F.TW_CH_CTRL.START_SRC c)))
  let nothing := fun (s : State) (c : Nat) (s' : State) => s'.tw = s.tw ∧ keeps s c s' ∧
    ∀ w, s'.word .TW_CH_STATUS c w = s.word .TW_CH_STATUS c w ∧ s'.word .TW_CH_COUNT c w = s.word .TW_CH_COUNT c w
  let killed := fun (s : State) (c : Nat) (s' : State) => twState s' c = 6 ∧ (twChan s' c).moves = [] ∧
    (twChan s' c).wait = none ∧ (twChan s' c).pc = (twChan s c).pc ∧ keeps s c s' ∧ s'.out = s.out ∧
    (∀ x, (∀ m ∈ (twChan s c).moves, sysSpace m.dst = 0 → ∀ k, k < m.len → (sysOff m.dst + k) % 2 ^ 64 ≠ x) →
      Sparse.get (0 : Byte) s'.host.mem x = Sparse.get (0 : Byte) s.host.mem x)
  let near := fun (s : State) (c : Nat) => ∀ m ∈ (twChan s c).moves, sysSpace m.dst < 4
  (∀ (s : State) (a : Agent) (c : Nat), Reaches s a .TW_CH_CTRL c 0 → s.rd F.TW_CH_CTRL.CMD c = 0 →
    s.rd F.TW_CH_CTRL.KILL c = 0 →
    let stopped := twState s c = 0 ∨ twState s c = 5 ∨ twState s c = 6
    (twOwned s c = false →
      (twState s c = 0 → ∃ s', exec (.channelStart a c) s = .next s' ∧ started s c s') ∧
      (stopped → ∃ s', exec (.channelReset a c) s = .next s' ∧ cleared s c s' ∧ twState s' c = 0) ∧
      (near s c → ∃ s', exec (.channelKill a c) s = .next s' ∧ killed s c s') ∧
      (twState s c ≠ 0 → ∃ s', exec (.channelStart a c) s = .next s' ∧ nothing s c s') ∧
      (¬stopped → ∃ s', exec (.channelReset a c) s = .next s' ∧ nothing s c s')) ∧
    (twOwned s c = true →
      (∃ s', exec (.channelStart a c) s = .next s' ∧ nothing s c s') ∧
      (∃ s', exec (.channelReset a c) s = .next s' ∧ nothing s c s') ∧
      (∃ s', exec (.channelKill a c) s = .next s' ∧ nothing s c s'))) ∧
  (∀ (s : State) (fn c : Nat), Reaches s (.fn fn) .TW_DOORBELL 0 0 → c < 128 →
    (fn = 0 ∨ s.rd F.TW_CH_CTRL.REALM c = fn → twOwned s c = false →
      (twState s c = 4 → ∃ s', exec (.doorbellRing fn c) s = .next s' ∧ twState s' c = 2 ∧ s'.tw = s.tw ∧ keeps s c s') ∧
      (twState s c = 2 ∨ twState s c = 3 → ∃ s', exec (.doorbellRing fn c) s = .next s' ∧
        s'.rd F.TW_CH_STATUS.DB_PEND c = 1 ∧ twState s' c = twState s c ∧ s'.tw = s.tw ∧ keeps s c s') ∧
      (twState s c ≠ 2 → twState s c ≠ 3 → twState s c ≠ 4 →
        ∃ s', exec (.doorbellRing fn c) s = .next s' ∧ nothing s c s') ∧
      (twState s c = 0 → ∃ s', exec (.doorbellStart fn c) s = .next s' ∧ started s c s') ∧
      (near s c → ∃ s', exec (.doorbellKill fn c) s = .next s' ∧ killed s c s')) ∧
    (fn = 0 ∨ s.rd F.TW_CH_CTRL.REALM c = fn → twOwned s c = true →
      ∀ i ∈ [Instr.doorbellRing fn c, .doorbellStart fn c, .doorbellKill fn c], ∃ s', exec i s = .next s' ∧ nothing s c s') ∧
    (fn ≠ 0 → s.rd F.TW_CH_CTRL.REALM c ≠ fn → ∀ i ∈ [Instr.doorbellRing fn c, .doorbellStart fn c, .doorbellKill fn c],
      ∃ s', exec i s = .next s' ∧ s'.tw = s.tw ∧ s'.rd F.SY_REFUSED_ACCESS.COUNT 0 =
          satAdd 64 (s.rd F.SY_REFUSED_ACCESS.COUNT 0) 1 ∧
        OtherRegisters s s' (fun r _ => r = .SY_REFUSED_ACCESS ∨ r = .TW_DOORBELL))) ∧
  (∀ (s : State) (a : Agent) (t : Nat) (v : Word), Reaches s a .TW_TIMER t 0 →
    ∃ s', exec (.timerWrite a t v) s = .next s' ∧
      s'.rd F.TW_TIMER.PERIOD_US t = clampRange 1 16777215 (bitsOf v.toNat 0 24) ∧
      s'.rd F.TW_TIMER.EN t = bitsOf v.toNat 24 1 ∧
      s'.rd F.TW_TIMER.TICKS t = (if bitsOf v.toNat 24 1 = 1 ∧ s.rd F.TW_TIMER.EN t = 0 then 0
        else s.rd F.TW_TIMER.TICKS t) ∧
      (bitsOf v.toNat 24 1 = 1 →
        Sparse.get 0 s'.tw.timers t = s.clk.ns + s'.rd F.TW_TIMER.PERIOD_US t * 1000) ∧
      s'.tw.chans = s.tw.chans ∧ OtherRegisters s s' (fun r i => r = .TW_TIMER ∧ i = t)) ∧
  (∀ (s : State) (t : Nat), t < 16 → s.on F.TW_TIMER.EN t = true → s.clk.diesOn = true →
    ∃ s', exec (.timerTick t) s = .next s' ∧ s'.clk.ns = max s.clk.ns (Sparse.get 0 s.tw.timers t) ∧
      s'.rd F.TW_TIMER.TICKS t = (s.rd F.TW_TIMER.TICKS t + 1) % 2 ^ 32 ∧
      Sparse.get 0 s'.tw.timers t = Sparse.get 0 s.tw.timers t + s.rd F.TW_TIMER.PERIOD_US t * 1000 ∧
      (∀ c, c < 128 →
        let ch := twChan s c
        (ch.wait = some (.timer t) → twState s c = 1 → twState s' c = 2 ∧ twChan s' c = { ch with wait := none }) ∧
        (ch.wait = some (.timer t) → twState s c = 3 →
          twState s' c = 2 ∧ twChan s' c = { ch with wait := none, pc := (ch.pc + 8) % 2 ^ 64 }) ∧
        (ch.wait ≠ some (.timer t) → twState s' c = twState s c ∧ twChan s' c = ch)) ∧
      OtherRegisters s s' (fun r _ => r = .TW_TIMER ∨ r = .TW_CH_STATUS))

/-- R427 and R429 to R441. A running channel reads one word and does what it says: MOVE begins a copy of its ranges at the open loop's strides, unless
it must wait; LOOP goes back until its count is reached; WAIT takes a pending signal or waits; SIGNAL sets a bit or
releases its target; LINK goes on at its target; END ends, parks, or reads once more. Undefined words and addresses
fault, and so does a fetch from host memory that ends with an error. -/
def Obligations.TrowelInstructions : Prop :=
  ∀ (s f : State) (c w : Nat) (e : Bool),
    let ch := twChan s c
    let pc := ch.pc
    let next := (pc + 8) % 2 ^ 64
    let i := s.rd F.TW_CH_STATUS.LOOP_I c
    c < 128 → s.clk.diesOn = true → twState s c = 2 → ch.halting = false → ch.faulting = false →
    sysWaits s pc = false →
    let faults := fun (code : Nat) (s' : State) => s'.rd F.TW_CH_STATUS.FAULT c = code ∧ (twChan s' c).pc = pc ∧
      (twChan s' c).moves = ch.moves ∧
      (ch.moves = [] → twState s' c = 5 ∧ ∃ p : State, p.out = f.out ∧ s' = p.raise 0) ∧
      (ch.moves ≠ [] → twState s' c = 2 ∧ (twChan s' c).faulting = true)
    let others := fun (s' : State) => (∀ d, d ≠ c → twChan s' d = twChan s d) ∧ s'.host.mem = f.host.mem ∧ s'.out = f.out ∧
      OtherRegisters f s' (fun r i => r = .TW_CH_STATUS ∧ i = c)
    (∀ code op, twAccessFault s c (sysSpace pc) (sysOff pc) 8 = some code → f = s →
      op ∈ [Instr.twMove c e, .twLoop c e, .twWait c e, .twSignal c e, .twLink c e, .twEnd c e] →
      ∃ s', exec op s = .next s' ∧ faults code s') ∧
    (twAccessFault s c (sysSpace pc) (sysOff pc) 8 = none → e = true → sysSpace pc = 0 → f = s →
      ∀ op ∈ [Instr.twMove c e, .twLoop c e, .twWait c e, .twSignal c e, .twLink c e, .twEnd c e],
      ∃ s', exec op s = .next s' ∧ faults 5 s') ∧
    (twAccessFault s c (sysSpace pc) (sysOff pc) 8 = none → (e = true → sysSpace pc ≠ 0) → w < 2 ^ 64 →
      twGet s c (sysSpace pc) (sysOff pc) 8 = (leBytes 8 w, f) →
      (∀ op, w / 2 ^ 60 = 0 ∨ 7 ≤ w / 2 ^ 60 → op ∈ [Instr.twMove c e, .twLoop c e, .twWait c e, .twSignal c e, .twLink c e, .twEnd c e] →
        ∃ s', exec op s = .next s' ∧ faults 1 s') ∧
      (∀ count fence ss ds len src dst g, count < 2 → fence < 2 → ss < 2 ^ 12 → ds < 2 ^ 12 → 1 ≤ len → len ≤ 2 ^ 24 →
        src < 2 ^ 64 → dst < 2 ^ 64 →
        w = 2 ^ 60 + count * 2 ^ 59 + fence * 2 ^ 58 + ss * 2 ^ 44 + ds * 2 ^ 32 + (len - 1) →
        let a := sysOff src + i * 64 * ss
        let b := sysOff dst + i * 64 * ds
        (16 ≤ ch.moves.length ∨ fence = 1 ∧ ch.moves ≠ [] → exec (.twMove c e) s = .next s) ∧
        (ch.moves.length < 16 → (fence = 1 → ch.moves = []) →
          twAccessFault f c (sysSpace pc) (sysOff pc) 24 = none →
          twGet f c (sysSpace pc) (sysOff pc + 8) 16 = (leBytes 8 src ++ leBytes 8 dst, g) →
          (twAccessFault g c (sysSpace src) a len = none → twAccessFault g c (sysSpace dst) b len = none →
            ∃ s', exec (.twMove c e) s = .next s' ∧ twChan s' c = { ch with
                moves := ch.moves ++ [⟨sysSpace src * 2 ^ 56 + a, sysSpace dst * 2 ^ 56 + b, len, count = 1, pc, 0, false⟩]
                pc := (pc + 24) % 2 ^ 64 } ∧
              s'.rd F.TW_CH_STATUS.INFLIGHT c = ch.moves.length + 1 ∧ s'.host.mem = s.host.mem ∧ s'.hb.mem = s.hb.mem) ∧
          (s.rd F.TW_CH_CTRL.REALM c ≠ 0 → sysSpace src ≠ 0 ∨ sysSpace src = 0 ∧ twAccessFault g c 0 a len = none ∧ sysSpace dst ≠ 0 →
            ∃ s', exec (.twMove c e) s = .next s' ∧ s'.rd F.TW_CH_STATUS.FAULT c = 3 ∧ (twChan s' c).pc = pc ∧
              (twChan s' c).moves = ch.moves ∧ s'.host.mem = s.host.mem))) ∧
      (∀ back n, 1 ≤ back → back < 2 ^ 20 → n < 2 ^ 32 → w = 2 * 2 ^ 60 + back * 2 ^ 32 + n →
        let again := (pc + 2 ^ 64 - 8 * back) % 2 ^ 64
        let to_ := fun (o : Option Nat) (p : Nat) (s' : State) =>
          twChan s' c = { ch with openLoop := o, pc := p } ∧ twState s' c = 2 ∧ others s'
        (ch.openLoop = none → n = 1 → ∃ s', exec (.twLoop c e) s = .next s' ∧ to_ none next s' ∧
          s'.rd F.TW_CH_STATUS.LOOP_I c = i) ∧
        (ch.openLoop = none → n ≠ 1 → ∃ s', exec (.twLoop c e) s = .next s' ∧ to_ (some pc) again s' ∧
          s'.rd F.TW_CH_STATUS.LOOP_I c = 1) ∧
        (ch.openLoop = some pc → n = 0 ∨ i + 1 < n → ∃ s', exec (.twLoop c e) s = .next s' ∧ to_ (some pc) again s' ∧
          s'.rd F.TW_CH_STATUS.LOOP_I c = (i + 1) % 2 ^ 32) ∧
        (ch.openLoop = some pc → n ≠ 0 → n ≤ i + 1 → ∃ s', exec (.twLoop c e) s = .next s' ∧ to_ none next s' ∧
          s'.rd F.TW_CH_STATUS.LOOP_I c = 0) ∧
        (∀ a, ch.openLoop = some a → a ≠ pc → ∃ s', exec (.twLoop c e) s = .next s' ∧ faults 4 s')) ∧
      (∀ kind n, kind < 2 → n < 128 → w = 3 * 2 ^ 60 + kind * 2 ^ 8 + n →
        let waits := fun (x : WaitOn) (s' : State) =>
          twState s' c = 3 ∧ twChan s' c = { ch with wait := some x } ∧ others s'
        (kind = 1 → bitAt ch.signals n = true → ∃ s', exec (.twWait c e) s = .next s' ∧ twState s' c = 2 ∧
          twChan s' c = { ch with signals := setBit ch.signals n false, pc := next } ∧ others s') ∧
        (kind = 1 → bitAt ch.signals n = false → ∃ s', exec (.twWait c e) s = .next s' ∧ waits (.signal n) s') ∧
        (kind = 0 → n < 16 → ∃ s', exec (.twWait c e) s = .next s' ∧ waits (.timer n) s') ∧
        (kind = 0 → 16 ≤ n → ∃ s', exec (.twWait c e) s = .next s' ∧ faults 1 s')) ∧
      (∀ d, d < 128 → w = 4 * 2 ^ 60 + d →
        (ch.moves ≠ [] → exec (.twSignal c e) s = .next s) ∧
        (ch.moves = [] → ∃ s', exec (.twSignal c e) s = .next s' ∧ (twChan s' c).pc = next ∧ twState s' c = 2 ∧
          (∀ o, o ≠ c → o ≠ d → twChan s' o = twChan s o ∧ twState s' o = twState s o) ∧
          (d = c → (twChan s' c).signals = setBit ch.signals c true) ∧
          (let t := twChan s d
           d ≠ c →
            (twState s d = 6 → twChan s' d = t ∧ twState s' d = 6) ∧
            (twState s d = 1 → t.wait = some (.signal c) → twState s' d = 2 ∧ twChan s' d = { t with wait := none }) ∧
            (twState s d = 3 → t.wait = some (.signal c) →
              twState s' d = 2 ∧ twChan s' d = { t with wait := none, pc := (t.pc + 8) % 2 ^ 64 }) ∧
            (twState s d ≠ 6 → t.wait ≠ some (.signal c) →
              twState s' d = twState s d ∧ twChan s' d = { t with signals := setBit t.signals c true })))) ∧
      (∀ space off, space < 8 → off < 2 ^ 56 → off % 8 = 0 → w = 5 * 2 ^ 60 + space * 2 ^ 56 + off →
        ∃ s', exec (.twLink c e) s = .next s' ∧ twChan s' c = { ch with pc := space * 2 ^ 56 + off } ∧ twState s' c = 2 ∧
          others s') ∧
      (w = 6 * 2 ^ 60 + 1 →
        ∃ s', exec (.twEnd c e) s = .next s' ∧ (ch.moves = [] → twState s' c = 0 ∧ twChan s' c = ch) ∧
          (ch.moves ≠ [] → twState s' c = 2 ∧ twChan s' c = { ch with halting := true }) ∧ others s') ∧
      (w = 6 * 2 ^ 60 →
        ∃ s', exec (.twEnd c e) s = .next s' ∧ twChan s' c = ch ∧ s'.rd F.TW_CH_STATUS.DB_PEND c = 0 ∧
          twState s' c = (if s.on F.TW_CH_STATUS.DB_PEND c = true then 2 else 4) ∧ others s'))

/-- R169, R173, R174, R430 to R434, R443, R444, R454 and R593. A MOVE that completes falls out of the channel's moves, the
requests of others served as their turns came; counted, it brings REMAIN down and at zero raises the channel's interrupt; a
host error faults the channel. The one MOVE in flight has written at its destination the bytes that its source holds, and
nothing else; after a host error its destination is open. XWR writes 8 bytes at a system address, or waits for it or
behind an earlier one of its thread, or is discarded. -/
def Obligations.MovesAndSystemWrites : Prop :=
  (∀ (s : State) (c n : Nat) (m : Move) (hostError : Bool), c < 128 → (twChan s c).moves[n]? = some m → s.tw.lost = [] →
    (∀ d, ∀ x ∈ (twChan s d).moves, sysSpace x.src < 4 ∧ sysSpace x.dst < 4) → 1 ≤ m.len → m.len ≤ 2 ^ 24 → sysOff m.src + m.len ≤ 2 ^ 56 → sysOff m.dst + m.len ≤ 2 ^ 56 →
    sysWaits s m.src = false → sysWaits s m.dst = false →
    let usesHost := sysSpace m.src = 0 ∨ sysSpace m.dst = 0
    let ok := usesHost → busMaster s (s.rd F.TW_CH_CTRL.REALM c) = true ∧ hostError = false ∧ m.failed = false
    let errs := usesHost ∧ (hostError = true ∨ m.failed = true ∨
      busMaster s (s.rd F.TW_CH_CTRL.REALM c) = false ∧ m.served < m.requests.length)
    let alone := (twChan s c).moves = [m] ∧ (∀ d, d ≠ c → (twChan s d).moves = []) ∧ m.served = 0
    let same := fun (l l' : List Move) => l'.map (fun (x : Move) => { x with served := 0, failed := false }) =
      l.map (fun (x : Move) => { x with served := 0, failed := false })
    let from_ := fun (s : State) (a : Nat) => if sysSpace a = 0 then Sparse.get (0 : Byte) s.host.mem (sysOff a)
      else if blockBad s (sysSpace a - 1) (sysOff a) then 0 else stackByte s (sysSpace a - 1) (sysOff a)
    let stored := fun (s : State) (a : Nat) => if sysSpace a = 0 then Sparse.get (0 : Byte) s.host.mem (sysOff a)
      else stackByte s (sysSpace a - 1) (sysOff a)
    let remain := s.rd F.TW_CH_COUNT.REMAIN c
    let route := 16 + c
    let realm := s.rd F.SY_INT_ROUTE.REALM route
    let vector := s.rd F.SY_INT_ROUTE.VECTOR route
    ∃ s', exec (.moveComplete c n hostError) s = .next s' ∧ same ((twChan s c).moves.eraseIdx n) (twChan s' c).moves ∧
      (∀ d, d ≠ c → same (twChan s d).moves (twChan s' d).moves ∧
        { twChan s' d with moves := [] } = { twChan s d with moves := [] }) ∧
      (alone → ok → moveOverlaps m = false → ∀ k, k < m.len →
        (sysSpace m.dst = 1 → stagingByte s (sysOff m.dst + k) = none) → stored s' (m.dst + k) = from_ s (m.src + k)) ∧
      (alone → ∀ a, a < 2 ^ 58 → (a < m.dst ∨ m.dst + m.len ≤ a) → stored s' a = stored s a) ∧
      (m.counted = true → s'.rd F.TW_CH_COUNT.REMAIN c =
        (if remain = 1 then s.rd F.TW_CH_COUNT.RELOAD c else remain - 1)) ∧
      (m.counted = false → s'.rd F.TW_CH_COUNT.REMAIN c = remain) ∧
      (m.counted = true → remain = 1 → s.on F.SY_INT_ROUTE.EN route = true → realmExists s realm = true →
        s.host.endpoint ≠ .inReset → msixOpen s realm vector = true → Out.msix realm vector ∈ s'.out) ∧
      (errs → (twChan s c).faulting = false → s'.rd F.TW_CH_STATUS.FAULT c = 5 ∧ (twChan s' c).pc = m.at_)) ∧
  (∀ (s : State) (t : Tid) (f : FmtA),
    let a := ((s.thread t).reg f.a.toNat).toNat / 8 * 8
    let v := (s.thread t).reg f.b.toNat
    let x := sysOff a
    let done := issued s t 1
    let waits := sysWaits s a = true ∨ ∃ b w, StagedWait.xwr t b w ∈ s.coat.waits
    IssueRule (.iXwr t f) s t (encA 0x65 f) (isSteward t = true ∧ f.d = 0 ∧ f.x = 0) (fun s' =>
      (waits → s' = { done with coat := { done.coat with waits := s.coat.waits ++ [.xwr t a v] } }) ∧
      (¬waits → (sysSpace a ≤ 3 → s'.thread t = advance s t) ∧
      (sysSpace a = 0 → busMaster s 0 = true → hostBytes s' x 8 = leBytes 8 v.toNat ∧
        (∀ y, y < x ∨ x + 8 ≤ y → Sparse.get (0 : Byte) s'.host.mem y = Sparse.get (0 : Byte) s.host.mem y) ∧
        s'.csr = s.csr) ∧
      (sysSpace a = 0 → busMaster s 0 = false → s' = done) ∧
      (∀ st, st < 3 → sysSpace a = st + 1 → inStack s st x = true →
        ((st = 0 → ∀ i, i < 8 → stagingByte s (x + i) = none) →
          (List.range 8).map (fun i => stackByte s' st (x + i)) = leBytes 8 v.toNat) ∧
        (∀ st' y, st' < 3 → y < 2 ^ 56 → (st' = st → y < x ∨ x + 8 ≤ y) → stackByte s' st' y = stackByte s st' y) ∧
        s'.host.mem = s.host.mem) ∧
      (∀ st, st < 3 → sysSpace a = st + 1 → inStack s st x = false → s' = done) ∧
      (sysSpace a = 4 → x < csrSize → s' = csrWrite done (threadAgent t) x .w64 v.toNat) ∧
      (sysSpace a = 5 → x < coatSize → s' = coatStore done x (leBytes 8 v.toNat)) ∧
      (6 ≤ sysSpace a ∨ sysSpace a = 4 ∧ csrSize ≤ x ∨ sysSpace a = 5 ∧ coatSize ≤ x → s' = done))))

/-- R449 to R457 and R459 to R465. The requests of a cycle reach a stack that serves in port order, and wake it from idle
self-refresh; a held stack's requests wait. A write replaces its block and is pending until it completes; a read behind a
pending write to its row puts the bank in in-order mode until then; a read that meets an error is logged, and an
uncorrectable block stays marked. A refresh that is due goes first, its interval halved above 85 °C. Idle self-refresh, scrub
and strobe rechecks act as described. Training makes a stack ACTIVE or FAILED, and hardens its repairs; a row that errs
becomes a candidate and is repaired once in its bank; a retired channel's granules move away one by one, and its yield region
leaves the space. -/
def Obligations.StacksServeTrainAndRetire : Prop :=
  let logged := fun (s : State) (st port x ue : Nat) (s' : State) =>
    let i := s.rd F.HB_STATUS.ERR_NEXT st
    let k := st * 64 + i
    s'.rd F.HB_ERRLOG.ADDR k = x / 32 * 32 ∧ s'.rd F.HB_ERRLOG.UE k = ue ∧ s'.rd F.HB_ERRLOG.PORT k = port ∧
      s'.rd F.HB_ERRLOG.TIME k = s.clk.ptp % 2 ^ 64 ∧ s'.rd F.HB_STATUS.ERR_NEXT st = (i + 1) % 64
  let candidate := fun (s : State) (st x : Nat) (s' : State) =>
    (st, placeBank (hbmPlace s st x), placeRow (hbmPlace s st x)) ∈ s'.hb.candidates
  let outcome := fun (s : State) (st port x : Nat) (ecc : EccResult) (s' : State) =>
    hbState s' st = 2 ∧ s'.hb.mem = s.hb.mem ∧ Sparse.get 0 s'.hb.lastReq st = s.clk.ns ∧
    (blockBad s st x = true ∨ ecc = .uncorrectable →
      logged s st port x 1 s' ∧ blockBad s' st x = true ∧ candidate s st x s') ∧
    (blockBad s st x = false → ecc = .corrected →
      let p := hbmPlace s st x
      let k := tripleKey st (placeBank p) (placeRow p)
      let recent := ((Sparse.get [] s.hb.rowErrs k) ++ [s.clk.ns]).filter (fun t => decide (s.clk.ns < t + dayNs))
      logged s st port x 0 s' ∧ blockBad s' st x = false ∧ Sparse.get [] s'.hb.rowErrs k = recent ∧
        (s.rd F.HB_CTRL.CE_ROW_LIMIT st ≤ recent.length → candidate s st x s') ∧
        (recent.length < s.rd F.HB_CTRL.CE_ROW_LIMIT st → s'.hb.candidates = s.hb.candidates)) ∧
    (blockBad s st x = false → ecc = .good → s'.hb.bad = s.hb.bad ∧ s'.hb.candidates = s.hb.candidates ∧
      OtherRegisters s s' (fun r i => r = .HB_STATUS ∧ i = st))
  let interval := fun (s : State) (st : Nat) =>
    let t := stackCelsius s st
    if 85 < t then Config.refreshNs t / 2 else Config.refreshNs t
  (∀ (s : State) (st port x : Nat), st < 3 → port < 5 → (port = 1 → st = 0) → inStack s st x = true →
    let bank := placeBank (hbmPlace s st x)
    let row := placeRow (hbmPlace s st x)
    let k := pairKey st bank
    let ws := Sparse.get [] s.hb.writes k
    let refreshes := fun (s' : State) => ∀ j, Sparse.get 0 s'.hb.refreshed j =
      (if j = k ∧ Sparse.get 0 s.hb.refreshed k + interval s st ≤ s.clk.ns then s.clk.ns
        else Sparse.get 0 s.hb.refreshed j)
    (stackServes s st = true →
      (∀ data, ∃ s', exec (.hbmRequest st [] [⟨port, x, .write data⟩]) s = .next s' ∧ hbState s' st = 2 ∧
        ((st = 0 → ∀ i, i < 32 → stagingByte s (x / 32 * 32 + i) = none) →
          ∀ i, i < 32 → stackByte s' st (x / 32 * 32 + i) = (leBytes 32 data.toNat).getD i 0) ∧
        blockBad s' st x = false ∧ Sparse.get [] s'.hb.writes k = ws ++ [(row, false)] ∧ refreshes s' ∧
        (∀ u y, st ≠ u ∨ y / 32 ≠ x / 32 → stackByte s' u y = stackByte s u y ∧ blockBad s' u y = blockBad s u y)) ∧
      (∀ ecc,
        ∃ s', exec (.hbmRequest st [] [⟨port, x, .read ecc⟩]) s = .next s' ∧ outcome s st port x ecc s' ∧ refreshes s' ∧
          (∀ a b f, ws = a ++ (row, f) :: b → (∀ w ∈ ws, w.2 = false) → (∀ w ∈ b, w.1 ≠ row) →
            Sparse.get [] s'.hb.writes k = a ++ (row, true) :: b ∧
            Sparse.get 0 s'.cnt.events 896 = min (Sparse.get 0 s.cnt.events 896 + 1) (2 ^ 64 - 1)) ∧
          ((∃ w ∈ ws, w.2 = true) ∨ (∀ w ∈ ws, w.1 ≠ row) →
            s'.hb.writes = s.hb.writes ∧ Sparse.get 0 s'.cnt.events 896 = Sparse.get 0 s.cnt.events 896)) ∧
      (∀ (done : List (Nat × Nat)) (reqs : List HbmReq) (w : Nat × Nat),
        ∃ t, { t with hb := s.hb } = s ∧ exec (.hbmRequest st (w :: done) reqs) s = exec (.hbmRequest st done reqs) t ∧
          Sparse.get [] t.hb.writes (pairKey st w.1) =
            removeFirst (fun v => v.1 == w.2) (Sparse.get [] s.hb.writes (pairKey st w.1))) ∧
      (∀ (r₁ r₂ : HbmReq) (t : State), r₁.port < r₂.port → r₂.port < 5 → exec (.hbmRequest st [] [r₁]) s = .next t →
        exec (.hbmRequest st [] [r₂, r₁]) s = exec (.hbmRequest st [] [r₂]) t ∧
        exec (.hbmRequest st [] [r₁, r₂]) s = exec (.hbmRequest st [] [r₂]) t)) ∧
    (∀ op, hbState s st = 4 → ∃ s', exec (.hbmRequest st [] [⟨port, x, op⟩]) s = .next s' ∧
      s'.hb.waiting = s.hb.waiting ++ [(st, ⟨port, x, op⟩)] ∧
      { s' with hb := { s'.hb with waiting := s.hb.waiting } } = s)) ∧
  (∀ (s : State) (st bank : Nat), st < 3 → hbState s st = 2 → s.clk.diesOn = true →
    (∃ s', exec (.refresh st bank) s = .next s' ∧
      s'.clk.ns = max s.clk.ns (Sparse.get 0 s.hb.refreshed (pairKey st bank) + interval s st) ∧
      Sparse.get 0 s'.hb.refreshed (pairKey st bank) = s'.clk.ns ∧
      (∀ k, k ≠ pairKey st bank → Sparse.get 0 s'.hb.refreshed k = Sparse.get 0 s.hb.refreshed k) ∧
      { s' with clk := s.clk, hb := { s'.hb with refreshed := s.hb.refreshed } } = s) ∧
    (s.on F.HB_CTRL.IDLE_SR_EN st = true → Sparse.get none s.hb.migrating st = none →
      ∃ s', exec (.idleSelfRefresh st) s = .next s' ∧ hbState s' st = 3 ∧
        s'.clk.ns = max s.clk.ns (Sparse.get 0 s.hb.lastReq st + s.rd F.HB_CTRL.IDLE_US st * 1000) ∧
        Sparse.get [] s'.hb.writes (pairKey st bank) = [] ∧
        { s'.hb with writes := s.hb.writes } = s.hb ∧ OtherRegisters s s' (fun r i => r = .HB_STATUS ∧ i = st)) ∧
    (∀ pc later, pc < 32 → retiredChannel s st ≠ some (pc / 2) →
      let k := pairKey st pc
      ∃ s', exec (.strobeTracking st pc later) s = .next s' ∧
        s'.clk.ns = max s.clk.ns (Sparse.get 0 s.hb.tracked k + 100000000) ∧
        Sparse.get 0 s'.hb.tracked k = s'.clk.ns ∧
        (let t := Sparse.get PcTrim.zero s.hb.trims k
         Sparse.get PcTrim.zero s'.hb.trims k = { t with strobe := t.strobe + (match later with
          | some true => 1
          | some false => -1
          | none => 0) }) ∧
        (∀ j, j ≠ k → Sparse.get PcTrim.zero s'.hb.trims j = Sparse.get PcTrim.zero s.hb.trims j) ∧
        { s' with clk := s.clk, hb := { s'.hb with trims := s.hb.trims, tracked := s.hb.tracked } } = s)) ∧
  (∀ (s : State) (st x : Nat) (ecc : EccResult), st < 3 → stackServes s st = true → inStack s st x = true →
    let since := Sparse.get 0 s.hb.scrubStart st
    let late := since + s.rd F.HB_CTRL.SCRUB_H st * 3600000000000 < s.clk.ns
    ∃ s', exec (.patrolScrub st x ecc) s = .next s' ∧ outcome s st 4 x ecc s' ∧
      Sparse.get 0 s'.hb.scrubStart st = (if x / 32 = 0 then s.clk.ns else since) ∧
      Sparse.get 0 s'.cnt.events 1090 =
        (if x / 32 = 0 ∧ late then min (Sparse.get 0 s.cnt.events 1090 + 1) (2 ^ 64 - 1) else Sparse.get 0 s.cnt.events 1090)) ∧
  (∀ s : State, s.clk.diesOn = true → s.hb.firmware = true → ∃ s', exec .trainingStart s = .next s' ∧
    (∀ st, st < 3 → (Sparse.get false s'.hb.begun st = true ↔ hbState s st = 1 ∨ Sparse.get false s.hb.begun st = true)) ∧
    { s' with hb := { s'.hb with begun := s.hb.begun } } = s) ∧
  (∀ (s : State) (st identity : Nat) (tcase : Int) (errors : List (Nat × Nat)), st < 3 → hbState s st = 1 →
    Sparse.get false s.hb.begun st = true →
    let good := ∀ e ∈ errors, e.2 = 0
    let set := fun (trims : List (Nat × PcTrim)) (s' : State) => (trims.map (·.1)).Nodup → ∀ t ∈ trims,
      pcTrained s st t.1 = true → Sparse.get PcTrim.zero s'.hb.trims (pairKey st t.1) = t.2
    (∀ r : TrainRec, Sparse.get none s.hb.records st = some r → r.crcGood = true → r.identity = identity →
      r.tcase - 30 ≤ tcase → tcase ≤ r.tcase + 30 →
      ∃ s', exec (.fastTraining st identity tcase errors) s = .next s' ∧ (good → hbState s' st = 2) ∧
        (¬good → hbState s' st = 1) ∧ Sparse.get [] s'.hb.lanes st = r.lanes ∧ set r.trims s' ∧
        s'.rd F.HB_STATUS.LAST_FAST st = 1 ∧ s'.lt.life.trainings = s.lt.life.trainings + 1) ∧
    ((∀ r : TrainRec, Sparse.get none s.hb.records st = some r →
        r.crcGood = false ∨ r.identity ≠ identity ∨ tcase < r.tcase - 30 ∨ r.tcase + 30 < tcase) →
      exec (.fastTraining st identity tcase errors) s = .next s) ∧
    (∀ (lanes : List Nat) (trims : List (Nat × PcTrim)),
      ∃ s', exec (.fullTraining st ⟨identity, tcase, lanes, trims, errors⟩) s = .next s' ∧
        s'.rd F.HB_STATUS.LAST_FAST st = 0 ∧ s'.lt.life.trainings = s.lt.life.trainings + 1 ∧
        Sparse.get [] s'.hb.lanes st = lanes ∧ set trims s' ∧
        (good → hbState s' st = 2 ∧ Sparse.get none s'.hb.records st =
            some ⟨identity, tcase, lanes, trims.filter (fun t => pcTrained s st t.1), true⟩ ∧
          ∀ bank r, Sparse.get none s.hb.repaired (pairKey st bank) = some r →
            Sparse.get none s'.hb.repaired (pairKey st bank) = some { r with hard := true }) ∧
        (¬good → hbState s' st = 5 ∧ s'.hb.records = s.hb.records ∧ s'.hb.repaired = s.hb.repaired))) ∧
  (∀ (s : State) (st bank row : Nat), (st, bank, row) ∈ s.hb.candidates → s.on F.HB_CTRL.AUTO_REPAIR st = true →
    stackServes s st = true → (∀ r, (st, bank, r) ∈ s.hb.candidates → row ≤ r) →
    let k := pairKey st bank
    ∃ s', exec (.postPackageRepair st bank row) s = .next s' ∧
      s'.hb.candidates = s.hb.candidates.filter (· != (st, bank, row)) ∧
      (Sparse.get none s.hb.repaired k = none → Sparse.get none s'.hb.repaired k = some ⟨row, false⟩ ∧
        Sparse.get [] s'.hb.rowErrs (tripleKey st bank row) = [] ∧
        s'.rd F.HB_STATUS.REPAIRS st = min (s.rd F.HB_STATUS.REPAIRS st + 1) (2 ^ 16 - 1)) ∧
      (∀ r, Sparse.get none s.hb.repaired k = some r → s'.hb.repaired = s.hb.repaired ∧ s'.csr = s.csr ∧
        Sparse.get 0 s'.cnt.events 899 = min (Sparse.get 0 s.cnt.events 899 + 1) (2 ^ 64 - 1))) ∧
  (∀ (s : State) (a : Agent) (st ch y : Nat), Reaches s a .HB_RETIRE st 0 → privOf s a = .owner → ch < 16 → y < 16 →
    let y' := if st = 0 then min y 12 else y
    let may := s.rd F.HB_STATUS.RETIRED st = 0 ∧ s.on F.HB_RETIRE.BUSY st = false ∧
      ¬(st < 2 ∧ poolInRegion s st y' = true)
    ∃ s', exec (.retireGo a st ch y) s = .next s' ∧ s'.rd F.HB_RETIRE.CHANNEL st = ch ∧ s'.rd F.HB_RETIRE.YIELD st = y' ∧
      OtherRegisters s s' (fun r i => r = .HB_RETIRE ∧ i = st) ∧
      (may → s'.rd F.HB_RETIRE.BUSY st = 1 ∧ s'.rd F.HB_RETIRE.PROGRESS st = 0 ∧
        Sparse.get none s'.hb.migrating st = some ⟨ch, y'⟩) ∧
      (¬may → s'.hb = s.hb ∧ s'.rd F.HB_RETIRE.BUSY st = s.rd F.HB_RETIRE.BUSY st)) ∧
  (∀ (s : State) (st granules : Nat) (m : Migration), st < 3 → Sparse.get none s.hb.migrating st = some m →
    m.channel < 16 → m.yieldTo < 16 →
    let n := min 5898240 (s.rd F.HB_RETIRE.PROGRESS st + granules)
    ∃ s', exec (.migrationComplete st granules) s = .next s' ∧ s'.rd F.HB_RETIRE.PROGRESS st = n ∧
      s'.hb.mem = s.hb.mem ∧
      (n < 5898240 → s'.hb = s.hb ∧ OtherRegisters s s' (fun r i => r = .HB_RETIRE ∧ i = st) ∧
        ∀ x, hbmChannel x = m.channel → x / yieldSize ≠ m.yieldTo → hbmPlace s' st x =
          (if granuleNo m.yieldTo x < n then remapped m.channel m.yieldTo x else x)) ∧
      (n = 5898240 → Sparse.get none s'.hb.migrating st = none ∧ s'.rd F.HB_RETIRE.BUSY st = 0 ∧
        s'.rd F.HB_STATUS.RETIRED st = 2 ^ m.channel ∧ retiredChannel s' st = some m.channel ∧
        (∀ x, x / yieldSize = m.yieldTo → inStack s' st x = false) ∧
        (∀ x, inStack s' st x = true → hbmChannel (hbmPlace s' st x) ≠ m.channel)))

/-- R468 to R471, R473 to R479, R483 to R486, R488 to R490 and R517. A frame is timed as it arrives, and what MACsec delivers,
decrypted, waits for admission; out of service it is discarded. A frame that leaves gets its time action and its protection,
with the next packet number; it waits while the transmitter trains. The SA window reads an SA without its key, or commits
one, and is BUSY meanwhile. Lanes lock, adapt and lose lock, and LINK follows, once what the port negotiates is agreed; the other FlexE
calendar comes into use when the partner has acknowledged the switch. -/
def Obligations.FramesLinksAndCalendars : Prop :=
  let one := fun (s s' : State) (e : Nat) =>
    Sparse.get 0 s'.cnt.events e = min (Sparse.get 0 s.cnt.events e + 1) (2 ^ 64 - 1)
  let invalid := fun (s : State) => if s.on F.PT_TIME_CTRL.VALID 0 then 0 else 2 ^ 63
  let squelch := fun (s' : State) => ∀ k, k < 2 → s'.on F.PT_SYNCE.SQUELCHED k = synceSquelched s' k
  (∀ (s : State) (o : Nat) (data : List Byte),
    let delivered := fun (d : List Byte) (s' : State) =>
      one s s' 1216 ∧ ∃ p, Sparse.get [] s'.hn.rxQueue o = Sparse.get [] s.hn.rxQueue o ++ [p] ∧ p.data = d ∧
        Tk.rxTime p.ticket = rxStamp s o + invalid s
    let none_ := fun (s' : State) => s'.hn = s.hn ∧ s'.csr = s.csr ∧ s'.out = s.out
    (objServes s o = false → ∃ s', exec (.frameReceive o data) s = .next s' ∧ one s s' 960 ∧
      { s' with cnt := s.cnt } = s) ∧
    (objServes s o = true →
      (32 ≤ o ∨ uncontrolled s o data = true →
        ∃ s', exec (.frameReceive o data) s = .next s' ∧ delivered data s' ∧ s'.pt = s.pt) ∧
      (o < 32 → uncontrolled s o data = false → etherType data ≠ 0x88E5 →
        (s.rd F.PT_MACSEC.VALIDATE o = 2 → ∃ s', exec (.frameReceive o data) s = .next s' ∧ none_ s') ∧
        (s.rd F.PT_MACSEC.VALIDATE o ≠ 2 → ∃ s', exec (.frameReceive o data) s = .next s' ∧ delivered data s')) ∧
      (∀ r, o < 32 → uncontrolled s o data = false → etherType data = 0x88E5 → secTagGood (s.on F.PT_MACSEC.XPN o) data = true →
        findRxSc s o data = some r →
        let i := 128 + 32 * o + 4 * r + tciByte data % 4
        let pn := recoverPn (s.on F.PT_MACSEC.XPN o) (saPn (saAt s i)) (beNat (slice data 16 4))
        let opened := openFrame s o (saAt s i) (s.rd F.PT_RXSC.SCI (8 * o + r)) pn data
        let good := opened.2 = true
        saEn (saAt s i) = true →
        (s.on F.PT_MACSEC.REPLAY_EN o = true → pn < saPn (saAt s i) →
          ∃ s', exec (.frameReceive o data) s = .next s' ∧ none_ s' ∧ s'.pt.sas = s.pt.sas) ∧
        (saPn (saAt s i) ≤ pn → s.rd F.PT_MACSEC.VALIDATE o = 2 → ¬good →
          ∃ s', exec (.frameReceive o data) s = .next s' ∧ none_ s' ∧ s'.pt.sas = s.pt.sas) ∧
        (saPn (saAt s i) ≤ pn → s.rd F.PT_MACSEC.VALIDATE o ≠ 0 → good →
          ∃ s', exec (.frameReceive o data) s = .next s' ∧ delivered (untagged data opened.1) s' ∧
            saAt s' i = saWithPn (saAt s i)
              (min (max (saPn (saAt s i)) (pn + 1 - s.rd F.PT_MACSEC.REPLAY_WIN o)) (2 ^ pnBits s o - 1)))))) ∧
  (∀ (s : State) (d : Nat) (line : Option Nat) (p : Pkt) (rest : List Pkt),
    Sparse.get [] s.hn.macQueue d = p :: rest →
    let w := tkGet p.ticket 116 0 32
    let off := bitsOf w 2 9
    let tx := txStamp s d
    let time := tx + invalid s
    let i := 4 * d + s.rd F.PT_MACSEC.TX_AN d
    let pn := saPn (saAt s i)
    let ready := d < 32 ∧ s.on F.PT_TIME_CTRL.VALID 0 = true
    let sends := fun (bytes : List Byte) (s' : State) =>
      s'.out = s.out ++ [.frame d bytes time] ∧ Sparse.get [] s'.hn.macQueue d = rest ∧ one s s' 1218
    let plain := 32 ≤ d ∨ uncontrolled s d p.data = true ∨ s.on F.PT_MACSEC.TX_EN d = false
    let skips := ∃ s', exec (.frameTransmit d line) s = .next s' ∧ sends p.data s' ∧ one s s' 963
    (objServes s d = false → ∃ s', exec (.frameTransmit d line) s = .next s' ∧ one s s' 961 ∧ s'.out = s.out ∧
      Sparse.get [] s'.hn.macQueue d = rest ∧ s'.pt = s.pt) ∧
    (lineDrive s d = .training → exec (.frameTransmit d line) s = .next s) ∧
    (lineDrive s d = .frames → plain →
      (w % 4 = 0 → ∃ s', exec (.frameTransmit d line) s = .next s' ∧ sends p.data s' ∧ s'.csr = s.csr) ∧
      (w % 4 = 1 → d < 32 → (Sparse.get [] s.pt.tsQ d).length < 64 →
        ∃ s', exec (.frameTransmit d line) s = .next s' ∧ sends p.data s' ∧
          Sparse.get [] s'.pt.tsQ d = Sparse.get [] s.pt.tsQ d ++ [(bitsOf w 16 16, time)]) ∧
      (w % 4 = 1 → d < 32 → 64 ≤ (Sparse.get [] s.pt.tsQ d).length →
        ∃ s', exec (.frameTransmit d line) s = .next s' ∧ sends p.data s' ∧ one s s' 964 ∧ s'.pt.tsQ = s.pt.tsQ) ∧
      (w % 4 = 2 → ready → off + 44 ≤ p.data.length → ∃ s', exec (.frameTransmit d line) s = .next s' ∧
        sends (splice p.data (off + 34) (beBytes 6 (tx / 1000000000) ++ beBytes 4 (tx % 1000000000))) s') ∧
      (w % 4 = 3 → ready → off + 16 ≤ p.data.length → bitAt (Tk.rxTime p.ticket) 63 = false →
        let cf : Int := (beNat (slice p.data (off + 8) 8) : Int) +
          ((tx : Int) - (Tk.rxTime p.ticket : Int) - stepsAfter s (Tk.rxTime p.ticket)) * 65536
        ∃ s', exec (.frameTransmit d line) s = .next s' ∧
          sends (splice p.data (off + 8) (beBytes 8 (unsigned 64 cf))) s') ∧
      (w % 4 ≠ 0 → 32 ≤ d → skips) ∧ (w % 4 = 2 → ¬(ready ∧ off + 44 ≤ p.data.length) → skips) ∧
      (w % 4 = 3 → ¬(ready ∧ off + 16 ≤ p.data.length ∧ bitAt (Tk.rxTime p.ticket) 63 = false) → skips)) ∧
    (lineDrive s d = .frames → ¬plain →
      (saEn (saAt s i) = true → pn = 0 → ∃ s', exec (.frameTransmit d line) s = .next s' ∧ one s s' 962 ∧ s'.out = s.out ∧
        Sparse.get [] s'.hn.macQueue d = rest ∧ s'.pt = s.pt) ∧
      (saEn (saAt s i) = true → pn ≠ 0 → w % 4 = 0 →
        ∃ s', exec (.frameTransmit d line) s = .next s' ∧
          sends (sealFrame s d ⟨i, pn, s.on F.PT_MACSEC.CONF d⟩ p.data) s' ∧ saPn (saAt s' i) = (pn + 1) % 2 ^ pnBits s d ∧
          (∀ j, j ≠ i → saAt s' j = saAt s j) ∧
          (12 * 2 ^ (pnBits s d - 4) ≤ pn + 1 → Sparse.get false s'.pt.warned i = true) ∧
          (pn + 1 < 12 * 2 ^ (pnBits s d - 4) → s'.pt.warned = s.pt.warned)))) ∧
  (∀ (s : State) (a : Agent) (index : Nat), Reaches s a .PT_SA_WIN 0 0 → windowBusy s .PT_SA_WIN 0 = true →
    ∃ s', exec (.saRead a index) s = .next s' ∧ exec (.saWrite a index) s = .next s' ∧ AccessOnly s s' ∧
      OtherRegisters s s' (fun _ _ => False)) ∧
  (∀ (s : State) (a : Agent) (index : Nat), Reaches s a .PT_SA_WIN 0 0 → index ≤ 1151 →
    windowBusy s .PT_SA_WIN 0 = false →
    (∃ s', exec (.saRead a index) s = .next s' ∧ s'.rd F.PT_SA_WIN.INDEX 0 = index ∧
      s'.rdWide F.PT_SA_WIN.DATA 0 = (saAt s index).toNat % 2 ^ 256 ∧
      (a ≠ .startWrite → Sparse.get 0 s'.host.busyTill (pairKey Reg.PT_SA_WIN.code 0) = s.clk.ns + min Config.windowNs 1000) ∧
      { s' with csr := s.csr, cnt := s.cnt, host := { s'.host with
        held := s.host.held, busyTill := s.host.busyTill } } = s ∧
      OtherRegisters s s' (fun r _ => r = .PT_SA_WIN)) ∧
    (∃ s', exec (.saWrite a index) s = .next s' ∧ s'.rd F.PT_SA_WIN.INDEX 0 = index ∧
      saAt s' index = BitVec.ofNat 512 (clampSa s index (s.rdWide F.PT_SA_WIN.DATA 0)) ∧
      s'.rdWide F.PT_SA_WIN.DATA 0 = (saAt s' index).toNat % 2 ^ 256 ∧ Sparse.get false s'.pt.warned index = false ∧
      (∀ j, j ≠ index → saAt s' j = saAt s j) ∧ OtherRegisters s s' (fun r _ => r = .PT_SA_WIN))) ∧
  (∀ (s : State) (k n : Nat), lanePort s k = some n →
    let only := fun (s' : State) => OtherRegisters s s' (fun r i => r = .PT_PORT_STATUS ∧ i = n ∨ r = .PT_SYNCE)
    (∃ s', exec (.laneLock k) s = .next s' ∧ laneLocked s' k = true ∧ s'.pt = s.pt ∧ squelch s' ∧ only s' ∧
      (laneAdapted s k = false → s'.on F.PT_PORT_STATUS.ADAPTING n = true)) ∧
    (∃ s', exec (.clockLockLoss k) s = .next s' ∧ laneLocked s' k = false ∧ s'.pt = s.pt ∧ squelch s' ∧ only s') ∧
    (laneLocked s k = true → laneAdapted s k = false → ∀ aligned,
      ∃ s', exec (.adaptationComplete k aligned) s = .next s' ∧ laneAdapted s' k = true ∧
        (∀ j, j ≠ k → laneAdapted s' j = laneAdapted s j) ∧ squelch s' ∧ only s' ∧
        (portLink s' n = true ↔ portLink s n = true ∨
          aligned = true ∧ portAdapted s' n = true ∧ advertises s n = none))) ∧
  (∀ (s : State) (k : Nat) (moves : List (Nat × Bool)), laneAdapted s k = true →
    let late := Sparse.get 0 s.pt.adaptedAt k + 1000000000 < s.clk.ns
    ∃ s', exec (.adaptationCycle k moves) s = .next s' ∧
      (∀ j, Sparse.get 0 s'.pt.equaliser (pairKey k j) = Sparse.get 0 s.pt.equaliser (pairKey k j) +
        (match moves.find? (fun m => m.1 == j) with
          | some (_, true) => 1
          | some (_, false) => -1
          | none => 0)) ∧
      (late → one s s' 1090) ∧ (¬late → s'.cnt = s.cnt) ∧ Sparse.get 0 s'.pt.adaptedAt k = s.clk.ns ∧
      { s' with cnt := s.cnt, pt := { s'.pt with equaliser := s.pt.equaliser, adaptedAt := s.pt.adaptedAt } } = s) ∧
  (∀ (s : State) (n : Nat) (r : LinkReport), n < 32 →
    let agreed := s.on F.PT_PORT.AN_LT n = true → portMode s n ≠ 5 →
      r.partner = some (portMode s n, s.rd F.PT_PORT.FEC n)
    let rises := s.on F.PT_PORT.EN n = true ∧ portAdapted s n = true ∧ agreed
    ∃ s', exec (.linkChange n r) s = .next s' ∧ s'.pt = s.pt ∧
      (s'.on F.PT_PORT_STATUS.HI_SER n = true ↔ s.rd F.PT_PORT.FEC n ≠ 0 ∧ r.symbols < 100000 * r.symbolErrors) ∧
      (r.up = true → rises → portLink s' n = true ∧ squelch s') ∧
      (r.up = true → ¬rises → portLink s' n = portLink s n) ∧ (r.up = false → portLink s' n = false ∧ squelch s') ∧
      OtherRegisters s s' (fun x i => x = .PT_PORT_STATUS ∧ i = n ∨ x = .PT_SYNCE)) ∧
  (∀ (s : State) (a : Agent) (g : Nat), Reaches s a .PT_FLEXE_GRP g 0 →
    ∃ s', exec (.calendarSwitch a g) s = .next s' ∧ AccessOnly s s' ∧
      s'.on F.PT_FLEXE_GRP.SW_BUSY g = (s.on F.PT_FLEXE_GRP.SW_BUSY g || s'.on F.PT_FLEXE_GRP.EN g) ∧
      s'.rd F.PT_FLEXE_GRP.CAL_USE g = s.rd F.PT_FLEXE_GRP.CAL_USE g ∧
      OtherRegisters s s' (fun r i => r = .PT_FLEXE_GRP ∧ i = g)) ∧
  (∀ (s : State) (g : Nat), s.on F.PT_FLEXE_GRP.SW_BUSY g = true →
    ∃ s', exec (.calendarSwitchDone g) s = .next s' ∧ s'.on F.PT_FLEXE_GRP.SW_BUSY g = false ∧
      s'.rd F.PT_FLEXE_GRP.CAL_USE g = 1 - s.rd F.PT_FLEXE_GRP.CAL_USE g ∧
      OtherRegisters s s' (fun r i => r = .PT_FLEXE_GRP ∧ i = g) ∧ { s' with csr := s.csr } = s)

/-- R480 to R482 and R487. SET loads the time base with VALUE; STEP adds the signed VALUE and keeps the step with the time at which
it was applied. A PPS input edge is measured; disciplined, an error above 1 µs is stepped away and a smaller one slewed,
and sixteen edges in a row within 100 ns make the time base valid. The output rises at a whole second while it is
driven. -/
def Obligations.TimeBaseAndPps : Prop :=
  (∀ (s : State) (a : Agent), Reaches s a .PT_TIME_ADJ 0 0 →
    let v := s.rd F.PT_TIME_ADJ.VALUE 0
    let step := max (-2 ^ 40) (min (2 ^ 40) (signed 64 v))
    let steps := s.pt.steps ++ [(s.clk.ptp, step)]
    (∃ s', exec (.timeSet a) s = .next s' ∧ s'.clk = { s.clk with ptp := min v (2 ^ 63 - 1), ptpFrac := 0 } ∧
      s'.rd F.PT_TIME_ADJ.VALUE 0 = min v (2 ^ 63 - 1) ∧ s'.pt = s.pt ∧
      OtherRegisters s s' (fun r _ => r = .PT_TIME_ADJ)) ∧
    (∃ s', exec (.timeStep a) s = .next s' ∧
      s'.clk = { s.clk with ptp := unsigned 63 ((s.clk.ptp : Int) + step) } ∧
      s'.pt.steps = steps.drop (steps.length - 16) ∧ s'.rd F.PT_TIME_ADJ.VALUE 0 = unsigned 64 step ∧
      { s'.pt with steps := s.pt.steps } = s.pt ∧ OtherRegisters s s' (fun r _ => r = .PT_TIME_ADJ))) ∧
  (∀ (s : State) (slew : Int), s.on F.PT_PPS.IN_EN 0 = true →
    let t : Int := (s.clk.ptp : Int) + signed 16 (s.rd F.PT_PPS.IN_ADJ 0)
    let shown := unsigned 63 t + (if s.on F.PT_TIME_CTRL.VALID 0 then 0 else 2 ^ 63)
    (s.on F.PT_TIME_CTRL.PPS_DISC 0 = false →
      ∃ s', exec (.ppsEdge slew) s = .next s' ∧ s'.rd F.PT_TIME_STATUS.PPS_IN_TIME 0 = shown ∧
        OtherRegisters s s' (fun r _ => r = .PT_TIME_STATUS) ∧ { s' with csr := s.csr } = s) ∧
    (∀ e : Int, s.on F.PT_TIME_CTRL.PPS_DISC 0 = true → -500000000 < e → e ≤ 500000000 → (t - e) % 1000000000 = 0 →
      ∃ s', exec (.ppsEdge slew) s = .next s' ∧ s'.rd F.PT_TIME_STATUS.PPS_IN_TIME 0 = shown ∧
        s'.pt.ppsRun = (if -100 ≤ e ∧ e ≤ 100 then s.pt.ppsRun + 1 else 0) ∧
        (e < -1000 ∨ 1000 < e → s'.clk.ptp = unsigned 63 ((s.clk.ptp : Int) - e) ∧
          s'.pt.steps.getLast? = some (s.clk.ptp, -e)) ∧
        (-1000 ≤ e → e ≤ 1000 → -100000 ≤ slew → slew ≤ 100000 →
          s'.clk.ptp = unsigned 63 ((s.clk.ptp : Int) + slew) ∧ s'.pt.steps = s.pt.steps) ∧
        (s'.on F.PT_TIME_CTRL.VALID 0 = true ↔ s.on F.PT_TIME_CTRL.VALID 0 = true ∨ 16 ≤ s'.pt.ppsRun) ∧
        OtherRegisters s s' (fun r _ => r = .PT_TIME_STATUS ∨ r = .PT_TIME_CTRL))) ∧
  (∀ s : State, s.clk.diesOn = true →
    let driven := s.on F.PT_PPS.OUT_EN 0 = true ∧ (s.on F.PT_TIME_CTRL.VALID 0 = true ∨ s.on F.PT_PPS.OUT_FREE 0 = true)
    ∃ s', exec .ppsOutEdge s = .next s' ∧ s.clk.ns ≤ s'.clk.ns ∧ s'.csr = s.csr ∧
      (driven → s'.out = s.out ++ [.pps] ∧ s'.pt.ppsFall = s'.clk.ptp + s.rd F.PT_PPS.WIDTH_MS 0 * 1000000) ∧
      (¬driven → s'.out = s.out) ∧
      (s.clk.ptp < 2 ^ 62 → s.clk.ptpFrac < 100000000000 → s.rd F.PT_TIME_CTRL.FREQ_ADJ 0 ≤ 50000000 →
        s'.clk.ptp % 1000000000 ≤ 1 ∧ (s.rd F.PT_TIME_CTRL.FREQ_ADJ 0 = 0 → s'.clk.ptp % 1000000000 = 0)))

/-- R392, R494 to R508 and R517. RETIRE takes a unit out of service, with a spare in its place when there is one, and is refused where R494 says so;
its end puts the spare into service and enters the life record. REINSTATE goes through its stages to admission, ABORT and
failures end it; shadow mismatches, self-test failures, column errors and phase currents take the steps described. -/
def Obligations.UnitsLeaveAndReturn : Prop :=
  let result := fun (s' : State) => s'.rd F.SY_SVC_CMD.RESULT 0
  let busy := fun (s' : State) => s'.on F.SY_SVC_CMD.BUSY 0 = true
  let onlyCmd := fun (s s' : State) => OtherRegisters s s' (fun r _ => r = .SY_SVC_CMD) ∧ s'.sv = s.sv ∧ s'.hn = s.hn
  let one := fun (s s' : State) (e : Nat) =>
    Sparse.get 0 s'.cnt.events e = min (Sparse.get 0 s.cnt.events e + 1) (2 ^ 64 - 1)
  (∀ (s : State) (a : Agent) (u : Nat) (nosub : Bool), Reaches s a .SY_SVC_CMD 0 0 → unitExists u = true →
    let st := svState s u
    (s.on F.SY_SVC_CMD.BUSY 0 = true → ∀ i ∈ [Instr.retire a u nosub, .reinstate a u], ∃ s', exec i s = .next s' ∧ onlyCmd s s') ∧
    (s.on F.SY_SVC_CMD.BUSY 0 = false →
      (st = 1 → ∃ s', exec (.retire a u nosub) s = .next s' ∧ svState s' u = 3 ∧ result s' = 0) ∧
      (st ≠ 0 → st ≠ 1 → ∃ s', exec (.retire a u nosub) s = .next s' ∧ onlyCmd s s' ∧ result s' = 2) ∧
      (∀ p sp, u ≤ 16 → st = 0 → nosub = false → freeSpare s = some sp → findPosition s (· == some u) = some p →
        ∃ s', exec (.retire a u nosub) s = .next s' ∧ svState s' u = 2 ∧ result s' = 0 ∧ busy s' ∧
          s'.hn.active = setAt s.hn.active p (some sp) ∧ s'.hn.spare = none ∧ (s'.slice u).queue = [] ∧
          (s'.slice sp).queue = (s.slice sp).queue ++ (s.slice u).queue) ∧
      (∀ p, u ≤ 16 → st = 0 → nosub = true ∨ freeSpare s = none → findPosition s (· == some u) = some p →
        2 ≤ (s.hn.active.filter (·.isSome)).length →
        ∃ s', exec (.retire a u nosub) s = .next s' ∧ svState s' u = 2 ∧ busy s' ∧
          result s' = (if nosub = true then 0 else 1) ∧ s'.hn.active = setAt s.hn.active p none ∧ s'.hn.spare = s.hn.spare) ∧
      (u ≤ 16 → st = 0 → nosub = true ∨ freeSpare s = none → some u ∈ s.hn.active →
        (s.hn.active.filter (·.isSome)).length = 1 →
        ∃ s', exec (.retire a u nosub) s = .next s' ∧ onlyCmd s s' ∧ result s' = 2) ∧
      (∀ sp, 32 ≤ u → u < 64 → st = 0 → nosub = false → freeBank s = some sp →
        ∃ s', exec (.retire a u nosub) s = .next s' ∧ svState s' u = 2 ∧ result s' = 0 ∧ busy s' ∧
          s'.sv.runs = s.sv.runs ++ [.bank u sp s.clk.ns] ∧ s'.rd F.LK_BANK_OOS.OOS 0 = s.rd F.LK_BANK_OOS.OOS 0) ∧
      (32 ≤ u → u < 66 → st = 0 → nosub = true ∨ freeBank s = none → bankAddr s u < 32 →
        ∃ s', exec (.retire a u nosub) s = .next s' ∧ svState s' u = 3 ∧ result s' = (if nosub = true then 0 else 1) ∧
          bitAt (s'.rd F.LK_BANK_OOS.OOS 0) (bankAddr s u) = true ∧ s'.sv = s.sv) ∧
      (96 ≤ u → st = 0 → ∃ s', exec (.retire a u nosub) s = .next s' ∧ svState s' u = 2 ∧ result s' = 0 ∧ busy s') ∧
      (st = 3 ∨ st = 7 → ∃ s', exec (.reinstate a u) s = .next s' ∧ svState s' u = 4 ∧ result s' = 0 ∧ busy s' ∧
        s'.rd F.SY_SVC_UNIT.MISMATCH u = 0 ∧ s'.sv.runs = s.sv.runs ++ [.reinstate u false] ∧
        (96 ≤ u → s'.rd F.FB_LINK.STATE (u - 96) = 1)) ∧
      (st ≠ 3 → st ≠ 7 → ∃ s', exec (.reinstate a u) s = .next s' ∧ onlyCmd s s' ∧ result s' = 2)) ∧
    (4 ≤ st → st ≠ 7 → ∃ s', exec (.abort a u) s = .next s' ∧ svState s' u = 3 ∧ result s' = 4 ∧
      (∀ b, SvcRun.reinstate u b ∉ s'.sv.runs) ∧ (96 ≤ u → s'.rd F.FB_LINK.STATE (u - 96) = 0)) ∧
    (st < 4 ∨ st = 7 → ∃ s', exec (.abort a u) s = .next s' ∧ onlyCmd s s' ∧ result s' = 2)) ∧
  (∀ (s : State) (n since : Nat) (stand : Option (Nat × Nat)), s.sv.runs = [.drain n stand since] → n ≤ 16 →
    (sliceEmpty s n = false → exec (.sliceDrainEnd n) s = .next s) ∧
    (sliceEmpty s n = true → ∃ s', exec (.sliceDrainEnd n) s = .next s' ∧ s'.sv.runs = [] ∧ ¬busy s' ∧
      s'.lt.life.sliceRetires = s.lt.life.sliceRetires + 1 ∧
      (∀ m, m ≤ 16 → (bitAt (s'.rd F.HN_DISP_CTRL.ACTIVE 0) m = true ↔ some m ∈ s.hn.active)) ∧
      (stand = none → svState s' n = 3 ∧ s'.rd F.SY_SVC_UNIT.STANDS_FOR n = 63) ∧
      (∀ p sp, stand = some (p, sp) → p < 16 → sp ≠ n → svState s' n = 3 ∧ svState s' sp = 0 ∧
        s'.rd F.SY_SVC_UNIT.STANDS_FOR sp = p))) ∧
  (∀ (s : State) (b sp since : Nat), b < 32 → sp = 64 ∨ sp = 65 → s.sv.runs = [.bank (32 + b) sp since] →
    ∃ s', exec (.bankSpareLoaded b) s = .next s' ∧ s'.sv.runs = [] ∧ ¬busy s' ∧ svState s' (32 + b) = 3 ∧ svState s' sp = 0 ∧
      s'.rd F.SY_SVC_UNIT.STANDS_FOR sp = b ∧ s'.rd F.LK_BANK_OOS.OOS 0 = s.rd F.LK_BANK_OOS.OOS 0 ∧ bankUnit s' b ≠ 32 + b) ∧
  (∀ (s : State) (k since : Nat), k < 48 → s.sv.runs = [.lane k since] → s.clk.diesOn = true →
    ∃ s', exec (.laneRetireWindowEnd k) s = .next s' ∧ s'.sv.runs = [] ∧ svState s' (96 + k) = 3 ∧
      s'.rd F.FB_LINK.STATE k = 0 ∧ bitAt s'.lt.life.lanesRetired k = true ∧
      s'.clk.ns = max s.clk.ns (since + s.rd F.FB_REORDER_CTRL.WINDOW_US 0 * 1000)) ∧
  (∀ (s : State) (u : Nat), unitExists u = true →
    (svState s u = 4 → ∃ s', exec (.stageComplete u true) s = .next s' ∧ svState s' u = (if 96 ≤ u then 6 else 5) ∧ s'.sv = s.sv) ∧
    (svState s u = 5 → reloads s u = false → ∃ s', exec (.stageComplete u true) s = .next s' ∧ svState s' u = 6 ∧
      (u ≤ 16 → ∀ core o, 24 * u ≤ core → core < 24 * u + 24 → Sparse.get 0 s'.hn.lmem (pairKey core o) = 0)) ∧
    (svState s u = 5 → reloads s u = true → ∃ s', exec (.stageComplete u true) s = .next s' ∧ svState s' u = 5 ∧
      reloads s' u = false) ∧
    (svState s u = 6 → ∃ s', exec (.stageComplete u true) s = .next s' ∧ result s' = 0 ∧
      (∀ p, u ≤ 16 → findPosition s (·.isNone) = some p → p < s.hn.active.length → svState s' u = 0 ∧
        s'.hn.active = setAt s.hn.active p (some u) ∧ s'.rd F.SY_SVC_UNIT.STANDS_FOR u = p) ∧
      (u ≤ 16 → findPosition s (·.isNone) = none → svState s' u = 1 ∧ s'.hn.spare = some u) ∧
      (32 ≤ u → u < 64 → bankUnit s (u - 32) = u → svState s' u = 0 ∧
        bitAt (s'.rd F.LK_BANK_OOS.OOS 0) (u - 32) = false) ∧
      (32 ≤ u → u < 64 → bankUnit s (u - 32) ≠ u → svState s' u = 0 ∧ svState s' (bankUnit s (u - 32)) = 1) ∧
      (u = 64 ∨ u = 65 → svState s' u = 1) ∧ (96 ≤ u → svState s' u = 0)) ∧
    (4 ≤ svState s u → svState s u ≤ 6 → ∃ s', exec (.stageComplete u false) s = .next s' ∧ svState s' u = 7 ∧
      result s' = 3 ∧ (∀ b, SvcRun.reinstate u b ∉ s'.sv.runs))) ∧
  (∀ (s : State) (u c r d : Nat), unitExists u = true → s.hn.shadowEnds = [(c, true, d), (c, false, r)] → svState s u = 6 →
    let n := min (s.rd F.SY_SVC_UNIT.MISMATCH u + 1) (2 ^ 16 - 1)
    (d = r ∨ r = shadowAbandoned → ∃ s', exec (.shadowCompare u c) s = .next s' ∧ s'.hn.shadowEnds = [] ∧ s'.csr = s.csr) ∧
    (d ≠ r → r ≠ shadowAbandoned → ∃ s', exec (.shadowCompare u c) s = .next s' ∧ s'.hn.shadowEnds = [] ∧
      s'.rd F.SY_SVC_UNIT.MISMATCH u = n ∧ svState s' u = (if s.rd F.SY_SVC_CTRL.SHADOW_FAIL 0 ≤ n then 7 else 6))) ∧
  (∀ (s : State) (u k : Nat), s.on F.TN_CTRL.SELFTEST_EN 0 = true → s.clk.diesOn = true →
    let auto := s.on F.SY_SVC_CTRL.AUTO_SPARE 0 = true ∧ svState s u = 0 ∧ unitExists u = true
    ∃ s', exec (.selftestFailure u k) s = .next s' ∧
      Sparse.get 0 s'.sv.selftests (pairKey k u) = Sparse.get 0 s.sv.selftests (pairKey k u) + 1 ∧
      (tnState s = 5 → tnLead s = false → s'.on F.TN_STATUS.SUSPECT 0 = true) ∧
      (96 ≤ u → auto → svState s' u = 2) ∧ (32 ≤ u → u < 64 → auto → (freeBank s).isSome = true → svState s' u = 2) ∧
      (u ≤ 16 → auto → (freeSpare s).isSome = true → (findPosition s (· == some u)).isSome = true → svState s' u = 2) ∧
      (¬auto → ∀ v, svState s' v = svState s v)) ∧
  (∀ (s : State) (die array column : Nat),
    let k := columnKey die array column
    let ts := columnErrors s die array column
    let late := Sparse.get 0 s.sv.scrubbed k + dayNs < s.clk.ns
    (s.clk.diesOn = true → ∃ s', exec (.sramScrub die array column .corrected) s = .next s' ∧
      Sparse.get [] s'.sv.colErrs k = ts ++ [s.clk.ns] ∧ (ts.length = 3 → columnFree s die array = false → one s s' 1089) ∧
      (ts.length ≠ 3 ∨ columnFree s die array = true → ¬late → s'.cnt = s.cnt) ∧ (late → one s s' 1090) ∧
      Sparse.get 0 s'.sv.scrubbed k = s.clk.ns ∧ s'.csr = s.csr) ∧
    (∀ ecc, ecc ≠ .corrected → s.clk.diesOn = true → ∃ s', exec (.sramScrub die array column ecc) s = .next s' ∧
      Sparse.get 0 s'.sv.scrubbed k = s.clk.ns ∧ (late → one s s' 1090) ∧ (¬late → s'.cnt = s.cnt) ∧
      { s' with cnt := s.cnt, sv := { s'.sv with scrubbed := s.sv.scrubbed } } = s) ∧
    (4 ≤ ts.length → columnFree s die array = true → ∃ s', exec (.columnRepair die array column) s = .next s' ∧
      Sparse.get [] s'.sv.colErrs k = [] ∧
      Sparse.get 0 s'.sv.colUsed (pairKey die array) = Sparse.get 0 s.sv.colUsed (pairKey die array) + 1 ∧
      s'.lt.life.columnsH + s'.lt.life.columnsV = s.lt.life.columnsH + s.lt.life.columnsV + 1)) ∧
  (∀ (s : State) (rail i : Nat) (currents : List Nat) (faults : List Bool), s.lt.running = true → rail < s.lt.rails →
    i < currents.length → (∀ j, j < currents.length → (phaseFails currents faults j = true ↔ j = i)) →
    (Sparse.get none s.lt.phaseSub rail = none → ∃ s', exec (.phaseCheck rail currents faults) s = .next s' ∧
      Sparse.get none s'.lt.phaseSub rail = some i ∧ s'.lt.phaseLost = s.lt.phaseLost ∧
      s'.lt.life.phases = s.lt.life.phases + 1) ∧
    (∀ j, Sparse.get none s.lt.phaseSub rail = some j → j ≠ i →
      ∃ s', exec (.phaseCheck rail currents faults) s = .next s' ∧ Sparse.get false s'.lt.phaseLost rail = true ∧
        s'.lt.phaseSub = s.lt.phaseSub ∧ OtherRegisters s s' (fun r _ => r = .LT_THROTTLE ∨ r = .LT_POWER) ∧
        ((∀ st, Sparse.get 0 s.lt.stackLevel st ≤ 15) → rail < 9 → ∀ t, t < 5 → railFeeds rail t = true →
          8 ≤ s'.rd (F.LT_THROTTLE.LEVEL t) 0)))

/-- R518, R520, R522 to R526, R528 to R533 and R584. Losing VIN, or an overvoltage, puts the dies into reset at once and makes the module Dormant;
after an overvoltage VIN counts as valid once it has stood at or below 45 V for 1 s; losing VAUX stops the Lath, and its
start loads what flash holds and samples the address straps; low and surging VIN are shown and counted. The rails
rise one after the other, and one that does not ends the start. A sample is stored, its rules assert and release as
their conditions have held, and the fixed protections act. Each hour the calendar and the counts go to flash. -/
def Obligations.LathSuppliesSamplesAndRules : Prop :=
  let vin := fun (s : State) => s.on F.LT_SUPPLY.VIN_VALID 0
  let off := fun (s s' : State) => s'.clk.diesOn = false ∧ powerState s' = 1 ∧ vin s' = false ∧ s'.lt.transition = none ∧
    s'.on F.LT_POWER.BUSY 0 = false ∧ s'.host.mem = s.host.mem ∧ s'.fr.stored = s.fr.stored ∧ s'.fr.flash = s.fr.flash ∧
    s'.host.endpoint = .inReset ∧ (∀ st, st < 3 → hbState s' st = 0)
  (∀ s : State,
    (s.lt.overvolt = true → s.on F.LT_SUPPLY.SURGE 0 = true → exec .vinValid s = .next s) ∧
    (s.lt.overvolt = false ∨ s.on F.LT_SUPPLY.SURGE 0 = false →
      ∃ s', exec .vinValid s = .next s' ∧ vin s' = true ∧ s'.lt.blocked = false ∧ s'.lt.overvolt = false ∧
        (s.lt.overvolt = false → s'.clk = s.clk) ∧
        (s.lt.overvolt = true → s'.clk.lath = max s.clk.lath (s.lt.calmAt + 1000000000)) ∧
        OtherRegisters s s' (fun r _ => r = .LT_SUPPLY)) ∧
    (∃ s', exec .vauxValid s = .next s' ∧ s'.lt.vaux = true ∧ { s' with lt := { s'.lt with vaux := s.lt.vaux } } = s) ∧
    (vin s = false → exec .vinLoss s = .next s) ∧
    (vin s = true → s.lt.running = true → ∃ s', exec .vinLoss s = .next s' ∧ off s s' ∧
      s'.lt.life.vinLoss = s.lt.life.vinLoss + 1) ∧
    (s.lt.running = true → ∃ s', exec .vinOvervoltage s = .next s' ∧ off s s' ∧ s'.lt.overvolt = true ∧ s'.on F.LT_SUPPLY.SURGE 0 = true ∧
      s'.lt.life.vinSurge = s.lt.life.vinSurge + (if s.on F.LT_SUPPLY.SURGE 0 then 0 else 1)) ∧
    (s.lt.running = true → vin s = true → ∀ low, ∃ s', exec (.vinLow low) s = .next s' ∧
      s'.on F.LT_SUPPLY.LOW 0 = low ∧ s'.clk = s.clk ∧
      s'.lt.life.vinLow = s.lt.life.vinLow + (if low = true ∧ s.on F.LT_SUPPLY.LOW 0 = false then 1 else 0)) ∧
    (s.lt.running = true → ∀ above, ∃ s', exec (.vinSurge above) s = .next s' ∧ s'.on F.LT_SUPPLY.SURGE 0 = above ∧
      s'.clk = s.clk ∧ (above = false → s'.lt.calmAt = s.clk.lath) ∧
      s'.lt.life.vinSurge = s.lt.life.vinSurge + (if above = true ∧ s.on F.LT_SUPPLY.SURGE 0 = false then 1 else 0)) ∧
    (s.lt.vaux = true → ∃ s', exec .vauxLoss s = .next s' ∧ s'.clk.diesOn = false ∧ s'.lt.running = false ∧
      s'.lt.vaux = false ∧ s'.lt.vauxLost = s.lt.vauxLost + 1 ∧ s'.lt.life = s.lt.life ∧ s'.lt.lifeRing = s.lt.lifeRing ∧
      s'.fr.sram = none ∧ s'.fr.flash = s.fr.flash ∧ s'.lt.evlog = [] ∧ vin s' = vin s) ∧
    (s.lt.vaux = true → s.lt.running = false → ∀ straps, straps < 4 → ∃ s', exec (.lathStart straps) s = .next s' ∧
      s'.lt.running = true ∧ s'.lt.straps = straps ∧
      s'.clk.lath = 0 ∧ s'.clk.lifeBase = s.lt.calendar ∧ s'.fr.sram = s.fr.flash ∧ s'.lt.vauxLost = 0 ∧
      s'.lt.life.vauxLoss = s.lt.life.vauxLoss + s.lt.vauxLost) ∧
    (s.lt.running = true → ∃ s', exec .lockstepReset s = .next s' ∧ s'.clk = s.clk ∧ s'.lt.life = s.lt.life ∧
      s'.lt.rails = s.lt.rails ∧ s'.hn = s.hn ∧ OtherRegisters s s' (fun r _ => r = .LT_EVLOG_HEAD) ∧
      ∃ e, s'.out = s.out ++ [.uart e] ∧ Sparse.get [] s'.lt.evlog (s.rd F.LT_EVLOG_HEAD.HEAD 0) = e ∧
        e.getD 8 0 = 6 ∧ e.length = 16) ∧
    (s.lt.running = true → ∃ s', exec .xtalFail s = .next s' ∧ s'.on F.LT_SUPPLY.XTAL_FAIL 0 = true ∧ { s' with csr := s.csr } = s) ∧
    (∀ rail, s.lt.raising = true → rail = s.lt.rails →
      (∃ s', exec (.railInRegulation rail) s = .next s' ∧ s'.lt.rails = rail + 1 ∧ s'.lt.raising = decide (rail + 1 < 9) ∧
        s'.csr = s.csr) ∧
      (∃ s', exec (.railTimeout rail) s = .next s' ∧ s'.clk.diesOn = false ∧ s'.lt.rails = 0 ∧ s'.lt.raising = false ∧
        s'.lt.blocked = true ∧ s'.on F.LT_POWER.BUSY 0 = false)) ∧
    (∀ rail, s.lt.raising = false ∨ rail ≠ s.lt.rails → exec (.railInRegulation rail) s = .next s ∧
      exec (.railTimeout rail) s = .next s) ∧
    (s.lt.running = true → ∃ s', exec .lifeRecordHourly s = .next s' ∧
      s'.clk.lath = max s.clk.lath (s.lt.hourAt + 3600000000000) ∧ s'.lt.hourAt = s'.clk.lath ∧
      s'.lt.calendar = lifeSeconds s' ∧
      s'.lt.life.onHours = s.lt.life.onHours + (if 2 ≤ powerState s then 1 else 0) ∧ s'.csr = s.csr)) ∧
  (∀ (s : State) (c : Nat) (v : Int), s.lt.running = true → c < 32 →
    let x := signed 32 (unsigned 32 v)
    let src := s.rd F.LT_CHAN.SOURCE c
    let on := fun (i : Nat) => s.on F.LT_RULE.EN i = true ∧ s.rd F.LT_RULE.CHAN i = c
    ∃ s', exec (.adcSample c v) s = .next s' ∧ s'.rd F.LT_CHAN.LAST c = unsigned 32 v ∧
      Sparse.get [] s'.lt.history c = (x :: Sparse.get [] s.lt.history c).take 1024 ∧
      (∀ t, s.lt.sampledAt.find? (fun e => e.1 == c) = some (c, t) →
        s'.clk.lath = max s.clk.lath (t + samplePeriod (s.rd F.LT_CHAN.RATE c))) ∧
      (src = 0 → s'.rd F.LT_SUPPLY.VIN_MV 0 = min x.toNat 65535) ∧
      (src = 1 → s'.rd F.LT_SUPPLY.VAUX_MV 0 = min x.toNat 65535) ∧
      (∀ d, d < 2 → 25 + 8 * d ≤ src → src < 33 + 8 * d → 105000 ≤ x → s'.rd (F.LT_THROTTLE.LEVEL d) 0 = 15) ∧
      ((∀ i, i < 256 → ¬on i) →
        OtherRegisters s s' (fun r i => r = .LT_CHAN ∧ i = c ∨ r = .LT_SUPPLY ∨ r = .LT_THROTTLE ∨ r = .LT_POWER)) ∧
      (∀ i, i < 256 → on i → s.rd F.LT_RULE.N i = 1 →
        let r := ruleAt s i
        let th := signed 32 (s.rd F.LT_RULE.THRESH i)
        let hy : Int := s.rd F.LT_RULE.HYST i
        let below := s.on F.LT_RULE.BELOW i
        let met := if below then x < th else th < x
        let gone := if below then th + hy < x else x < th - hy
        let long := fun (t : Option Nat) => ∀ b, t = some b → b + s.rd F.LT_RULE.HOLD i * 100000 < s'.clk.lath
        (ruleAsserted s i = false → (ruleAsserted s' i = true ↔ met ∧ long r.bad)) ∧
        (ruleAsserted s i = true → (ruleAsserted s' i = false ↔ gone ∧ long r.relBad)) ∧
        ((∀ j, j < 256 → j ≠ i → ¬on j) → ruleAsserted s i = false → met → long r.bad → s.rd F.LT_RULE.ACTION i = 2 →
          s'.rd F.LT_POWER.REQ 0 = s.rd F.LT_RULE.PARAM i % 4))) ∧
  (∀ (s : State) (st : Nat), s.lt.running = true → st < 3 →
    let l := Sparse.get 0 s.lt.stackLevel st
    let last := Sparse.get 0 s.lt.stackStep st
    (∀ x : Int, sensor s (20 + st) = some x →
      (93000 ≤ x → l < 15 → ∃ s', exec (.stackThrottleStep st) s = .next s' ∧
        Sparse.get 0 s'.lt.stackLevel st = l + 1 ∧ s'.clk.lath = max s.clk.lath (last + 10000000) ∧
        l + 1 ≤ s'.rd (F.LT_THROTTLE.LEVEL (2 + st)) 0) ∧
      (x ≤ 90000 → 0 < l → ∃ s', exec (.stackThrottleStep st) s = .next s' ∧
        Sparse.get 0 s'.lt.stackLevel st = l - 1 ∧ s'.clk.lath = max s.clk.lath (last + 100000000)) ∧
      (90000 < x → x < 93000 → exec (.stackThrottleStep st) s = .next s))) ∧
  (∀ (s : State) (a : Agent) (i w : Nat) (v : Word), Reaches s a .LT_RULE i w → privOf s a = .owner →
    ∃ s', exec (.ruleWrite a i w v) s = .next s' ∧ ruleAsserted s' i = false ∧ (ruleAt s' i).samples = 0 ∧
      (∀ j, j ≠ i → j < 256 → ruleAsserted s' j = ruleAsserted s j) ∧
      (w = 0 → s'.rd F.LT_RULE.EN i = bitsOf v.toNat 0 1 ∧ s'.rd F.LT_RULE.CHAN i = bitsOf v.toNat 1 5 ∧
        s'.rd F.LT_RULE.N i = clampRange 1 1024 (bitsOf v.toNat 9 11) ∧ s'.rd F.LT_RULE.THRESH i = bitsOf v.toNat 32 32 ∧
        s'.rd F.LT_RULE.ACTION i = (if 8 ≤ bitsOf v.toNat 20 4 then 0 else bitsOf v.toNat 20 4)) ∧
      (w = 1 → s'.rd F.LT_RULE.HYST i = bitsOf v.toNat 0 32 ∧
        s'.rd F.LT_RULE.HOLD i = clampRange 1 36000000 (bitsOf v.toNat 32 32)) ∧
      OtherRegisters s s' (fun r j => r = .LT_RULE ∧ j = i ∨ r = .LT_RULE_STAT ∨ r = .LT_THROTTLE ∨ r = .LT_POWER ∨
        r = .FR_STATUS ∨ r = .LT_EVLOG_HEAD)) ∧
  (∀ (s : State) (a : Agent) (c : Nat) (v : Word), Reaches s a .LT_CHAN c 0 → privOf s a = .owner →
    let src := min 49 (bitsOf v.toNat 0 6)
    let rate := bitsOf v.toNat 8 2
    ∃ s', exec (.channelSourceWrite a c v) s = .next s' ∧ s'.rd F.LT_CHAN.SOURCE c = src ∧ s'.rd F.LT_CHAN.RATE c = rate ∧
      s'.rd F.LT_CHAN.LAST c = s.rd F.LT_CHAN.LAST c ∧
      Sparse.get [] s'.lt.history c =
        (if src = s.rd F.LT_CHAN.SOURCE c ∧ rate = s.rd F.LT_CHAN.RATE c then Sparse.get [] s.lt.history c else []) ∧
      OtherRegisters s s' (fun r i => r = .LT_CHAN ∧ i = c))

/-- R454, R526, R537 to R541 and R543 to R545. The Lath begins the transition to the power target when none runs; slices that are powered
down leave the active list, are unpowered 20 µs later and come back tested and loaded; Holdover and Dormant are entered
when the drains are complete, and the return from Holdover brings units back. -/
def Obligations.PowerStatesAndSlices : Prop :=
  let busy := fun (s : State) => s.on F.LT_POWER.BUSY 0
  let target := powerTarget
  let entered := fun (s' : State) (st : Nat) => powerState s' = st ∧ busy s' = false ∧ s'.lt.transition = none
  let sealed_ := fun (s s' : State) => ∀ g, s.fr.opened = some g → g.records ≠ [] →
    s'.fr.opened = none ∧ s'.fr.lastSealed = g.seq
  (∀ s : State, s.lt.running = true → s.lt.transition = none →
    (powerState s = target s → exec .powerTransition s = .next s) ∧
    (powerState s = 1 → target s ≠ 1 → s.lt.blocked = true → exec .powerTransition s = .next s) ∧
    (powerState s = 1 → target s ≠ 1 → s.lt.blocked = false →
      ∃ s', exec .powerTransition s = .next s' ∧ busy s' = true ∧ s'.lt.rails = 0 ∧ s'.lt.raising = true ∧
        s'.lt.transition = some (if target s = 2 then .dormantToHoldover s.clk.lath else .start s.clk.lath) ∧
        OtherRegisters s s' (fun r _ => r = .LT_POWER)) ∧
    (powerState s = 2 → 3 ≤ target s → s.lt.standingDue = true → exec .powerTransition s = .next s) ∧
    (powerState s = 2 → 3 ≤ target s → s.lt.standingDue = false →
      ∃ s', exec .powerTransition s = .next s' ∧ busy s' = true ∧ s'.lt.transition = some (.fromHoldover s.clk.lath) ∧
        s'.lt.rootPower = true ∧ ∀ st, st < 2 → hbState s st = 4 → hbState s' st = 2) ∧
    (powerState s ≠ 1 → target s = 1 →
      ∃ s', exec .powerTransition s = .next s' ∧ busy s' = true ∧ s'.lt.transition = some (.toDormant s.clk.lath) ∧
        sealed_ s s' ∧ ∀ d, d < 256 → powerOf s' d ≠ 0) ∧
    (3 ≤ powerState s → target s = 2 →
      ∃ s', exec .powerTransition s = .next s' ∧ busy s' = true ∧ s'.lt.transition = some (.toHoldover s.clk.lath) ∧
        sealed_ s s' ∧ powerOf s' 160 ≠ 0 ∧ (∀ n, n < 32 → s.on F.PT_PORT.HOLDOVER n = false → powerOf s' n ≠ 0) ∧
        ∀ n, n < 17 → holdoverSlice s ≠ some n → (sliceDown s' n).isSome = true) ∧
    (3 ≤ powerState s → 3 ≤ target s → powerState s ≠ target s →
      ∃ s', exec .powerTransition s = .next s' ∧ entered s' (target s) ∧
        OtherRegisters s s' (fun r _ => r = .LT_POWER ∨ r = .LT_EVLOG_HEAD))) ∧
  (∀ (s : State) (n : Nat), n < 17 → s.clk.diesOn = true →
    (bitAt (s.rd F.LT_DOMAIN.SLICE_OFF 0) n = true → sliceDown s n = none →
      ∃ s', exec (.slicePowerDown n) s = .next s' ∧ some n ∉ s'.hn.active ∧ s'.hn.spare ≠ some n ∧
        (∀ m, m ≠ n → (some m ∈ s'.hn.active ↔ some m ∈ s.hn.active)) ∧
        sliceDown s' n = some ⟨s.clk.ns, false, svState s n == 0 || svState s n == 1⟩ ∧
        (svState s n ≤ 1 → svState s' n = 3) ∧ (2 ≤ svState s n → svState s' n = svState s n)) ∧
    (∀ d, sliceDown s n = some d → d.unpowered = false →
      ∃ s', exec (.slicePowerDownTimeout n) s = .next s' ∧ slicePackets s' n = [] ∧
        sliceDown s' n = some { d with unpowered := true } ∧ s'.clk.ns = max s.clk.ns (d.since + 20000) ∧
        (∀ c, (unpair c).1 = n → Sparse.get 0 s'.coat.slotA.code c = 0 ∧ Sparse.get 0 s'.coat.slotB.code c = 0)) ∧
    (∀ d, sliceDown s n = some d → d.unpowered = true → exec (.slicePowerDownTimeout n) s = .next s) ∧
    (∀ d ok, bitAt (s.rd F.LT_DOMAIN.SLICE_OFF 0) n = false → s.lt.transition = none → s.lt.held = false →
      sliceDown s n = some d →
      ∃ s', exec (.slicePowerUp n ok) s = .next s' ∧ sliceDown s' n = none ∧
        (d.returns = false → svState s' n = svState s n) ∧ (d.returns = true → ok = false → svState s' n = 7) ∧
        (d.returns = true → ok = true →
          (∀ p, findPosition s (·.isNone) = some p → svState s' n = 0 ∧ s'.rd F.SY_SVC_UNIT.STANDS_FOR n = p ∧
            s'.hn.active = setAt s.hn.active p (some n)) ∧
          (findPosition s (·.isNone) = none → svState s' n = 1 ∧ s'.hn.spare = some n)))) ∧
  (∀ (s : State) (t0 : Nat), s.lt.transition = some (.toHoldover t0) →
    (drained s = false → exec .holdoverEntryDrainEnd s = .next s) ∧
    (drained s = true → ∃ s', exec .holdoverEntryDrainEnd s = .next s' ∧ entered s' 2 ∧ s'.lt.held = true ∧ s'.lt.rootPower = false ∧
      (∀ x ∈ s'.fr.segs, x.stage = .done ∨ x.stage = .waiting) ∧
      (s.fr.segs ≠ [] → s'.clk.lath = max s.clk.lath (t0 + s.rd F.LT_HOLDOVER.FLUSH_MS 0 * 1000000)) ∧
      (∀ k, k < 48 → s'.rd F.FB_LINK.STATE k = 0) ∧
      (∀ b, 4 ≤ b → b < 32 → bitAt (s'.rd F.LK_BANK_OOS.OOS 0) b = true) ∧
      (∀ st, st < 2 → hbState s st = 2 ∨ hbState s st = 3 → hbState s' st = 4) ∧
      (∀ die core t, die < 2 → core = 1 ∨ core = 2 → t < 16 → s'.thread (.steward die core t) = Thread.init))) ∧
  (∀ (s : State) (t0 : Nat), s.lt.transition = some (.fromHoldover t0) →
    (recoating s = true → exec .holdoverReturn s = .next s) ∧
    (recoating s = false → s.coat.waits = [] → ∃ s', exec .holdoverReturn s = .next s' ∧ s'.lt.held = false ∧
      entered s' (if s.rd F.LT_DOMAIN.SLICE_OFF 0 = 0 ∧ s.rd F.LT_DOMAIN.PORT_OFF 0 = 0 then 4 else 3) ∧
      (∀ k, k < 48 → s.on F.FB_LINK.EN k = true → svState s (96 + k) = 0 → laneState s k = 0 →
        s'.rd F.FB_LINK.STATE k = 1) ∧
      (∀ b, 4 ≤ b → b < 32 → svState s (32 + b) = 0 → bitAt (s'.rd F.LK_BANK_OOS.OOS 0) b = false))) ∧
  (∀ (s : State) (t0 : Nat), s.lt.transition = some (.toDormant t0) →
    (drained s = false → exec .dormantEntry s = .next s) ∧
    (drained s = true → ∃ s', exec .dormantEntry s = .next s' ∧ entered s' 1 ∧ s'.clk.diesOn = false ∧
      s'.lt.rails = 0 ∧ s'.host.mem = s.host.mem ∧ s'.fr.stored = s.fr.stored ∧ s'.hb.mem = []))

/-- R48, R75, R108, R461, R536, R541, R546, R548 to R551, R553 to R555, R562, R563, R566, R568, R576 and R584. PERST# returns the host's side to
reset and its release trains the endpoint; a wake request acts by the link's state; the dies leave reset, a coat loads
and becomes active; SMBus messages to the module's address reach the registers; a realm's filter write clears its bank; and a health report is
kept, written to the host and sent to the twin. -/
def Obligations.StartWakeAndReports : Prop :=
  let hostSide := fun (r : Reg) => r = .SY_REALM_CTRL ∨ r = .SY_INT_ROUTE ∨ r = .SY_ABI_SELECT ∨ r = .SY_RING_BASE ∨
    r = .SY_RING_PTRS ∨ r = .SY_PUNT_BASE ∨ r = .SY_PUNT_PTRS
  let busy := fun (s : State) => s.on F.LT_POWER.BUSY 0
  let active := fun (s' : State) => s'.rd F.SY_COAT_STATUS.GENERATION 0 = 1 ∧ s'.rd F.SY_COAT_STATUS.ACTIVE_SLOT 0 = 0 ∧
    s'.rd F.SY_IMAGE_STATUS.SERVICE_READY 0 = 1 ∧ busy s' = false ∧ s'.lt.transition = none ∧ s'.cnt.reporting = true
  let started := fun (s s' : State) (core : Nat) => ∀ die t, die < 2 → t < 16 →
    let a := Sparse.get 0xFFFFFFFF s.coat.slotA.starts ((die * 4 + core) * 16 + t)
    a ≠ 0xFFFFFFFF → (s.thread (.steward die core t)).held = none → s'.thread (.steward die core t) =
      { Thread.init with pc := a % 65536, run := .running, held := some 0 }
  let loadable := fun (s : State) => s.clk.diesOn = true ∧ s.rd F.SY_COAT_STATUS.GENERATION 0 = 0 ∧
    s.lt.loaded = .none ∧ stacksTrained s = true
  let based := fun (s' : State) => s'.lt.loaded = .base ∧ s'.rd F.LT_BOOT.COAT 0 = 3 ∧ s'.coat.slotA = s'.coat.slotB
  (∀ s : State,
    (∃ s', exec .perstAssert s = .next s' ∧ s'.host = { HostSt.reset with mem := s.host.mem } ∧
      (∀ r i w, hostSide r → r ≠ .SY_ABI_SELECT ∨ s.hallmark = 3 → s'.word r i w = resetWord r i w) ∧
      (∀ n, n < 64 → s'.rd F.SY_ABI_SELECT.LEVEL n = s.hallmark ∧ s'.rd F.SY_ABI_SELECT.MAX n = s.hallmark) ∧
      OtherRegisters s s' (fun r _ => hostSide r) ∧
      (∀ fn k, fn < 64 → k < 16 → s'.coat.recoatBy ≠ some (fn, k)) ∧ s'.hn = s.hn ∧ s'.q = s.q ∧ s'.fb = s.fb ∧ s'.bm = s.bm) ∧
    (s.host.endpoint = .inReset → ∃ s', exec .perstDeassert s = .next s' ∧ s'.host.endpoint = .training ∧
      s'.lt.resuming = true ∧ s'.csr = s.csr) ∧
    (s.host.endpoint ≠ .inReset → exec .perstDeassert s = .next s) ∧
    (s.host.endpoint = .training → s.clk.diesOn = true → ∃ s', exec .endpointReady s = .next s' ∧
      s'.host.endpoint = .ready ∧ s'.csr = s.csr ∧ s'.lt = s.lt) ∧
    (∃ s', exec .linkL0 s = .next s' ∧ s'.rd F.LT_WAKE.PENDING 0 = 0 ∧ s'.rd F.LT_WAKE.PIN 0 = 0 ∧
      s'.lt.resuming = false ∧ OtherRegisters s s' (fun r _ => r = .LT_WAKE) ∧
      s'.rd F.LT_WAKE.CAUSE 0 = s.rd F.LT_WAKE.CAUSE 0 ∧ s'.rd F.LT_WAKE.RESUMED 0 = s.rd F.LT_WAKE.RESUMED 0) ∧
    (∃ s', exec .hostResume s = .next s' ∧ s'.lt.resuming = true ∧ s'.csr = s.csr)) ∧
  (∀ (s : State) (rule : Nat) (link : LinkState) (resuming : Bool), rule < 256 →
    (rule ∉ s.lt.wakeDue → exec (.wakeRequest rule link resuming) s = .next s) ∧
    (rule ∈ s.lt.wakeDue →
      let meets := resuming || s.lt.resuming
      let quiet := fun (s' : State) => Out.pmPme ∉ s'.out.drop s.out.length ∧ Out.wake ∉ s'.out.drop s.out.length
      ∃ s', exec (.wakeRequest rule link resuming) s = .next s' ∧ rule ∉ s'.lt.wakeDue ∧
        OtherRegisters s s' (fun r _ => r = .LT_WAKE ∨ r = .LT_EVLOG_HEAD) ∧
        (s.on F.LT_WAKE.PENDING 0 = true → s'.rd F.LT_WAKE.MERGED 0 = min (s.rd F.LT_WAKE.MERGED 0 + 1) 255 ∧
          s'.rd F.LT_WAKE.CAUSE 0 = s.rd F.LT_WAKE.CAUSE 0 ∧ s'.rd F.LT_WAKE.PENDING 0 = 1 ∧ quiet s') ∧
        (s.on F.LT_WAKE.PENDING 0 = false → s'.rd F.LT_WAKE.CAUSE 0 = rule ∧ s'.rd F.LT_WAKE.MERGED 0 = 0 ∧
          (s'.on F.LT_WAKE.RESUMED 0 = meets) ∧ (link = .l0 → s'.rd F.LT_WAKE.PENDING 0 = 0 ∧ quiet s') ∧
          (link ≠ .l0 → s'.rd F.LT_WAKE.PENDING 0 = 1 ∧ (meets = true → quiet s') ∧
            (meets = false → link = .l1 → Out.pmPme ∈ s'.out) ∧
            (meets = false → link ≠ .l1 → Out.wake ∈ s'.out ∧ s'.rd F.LT_WAKE.PIN 0 = 1))))) ∧
  (∀ s : State,
    let up := (List.range 17).filter (fun n => svState s n == 0 || svState s n == 1)
    let left := fun (s' : State) => s'.clk.diesOn = true ∧ s'.clk.ns = 0 ∧ s'.lt.life.cycles = s.lt.life.cycles + 1 ∧
      s'.rd F.SY_HALLMARK.ACTIVE 0 = s.rd F.SY_HALLMARK.PIN 0 ∧ (∀ st, st < 3 → hbState s' st = 1) ∧
      (s'.lt.rootPower = true ↔ ∃ t0, s.lt.transition = some (.start t0)) ∧
      s'.hn.active = (List.range 16).map (fun i => up[i]?) ∧ s'.hn.spare = up[16]?
    (exitReady s = false → exec .dieResetExit s = .next s ∧ exec .refclkStable s = .next s) ∧
    (exitReady s = true → s.lt.standing = none → s.lt.holdover = none →
      (∃ s', exec .dieResetExit s = .next s' ∧ left s') ∧ (∃ s', exec .refclkStable s = .next s' ∧ left s'))) ∧
  (∀ (s : State) (f0 f1 : Bool),
    (¬loadable s → exec (.coatLoad f0 f1) s = .next s) ∧
    (∀ t0, loadable s → s.lt.transition = some (.start t0) →
      (s.lt.standing = none → ∃ s', exec (.coatLoad f0 f1) s = .next s' ∧ based s' ∧ s'.rd F.LT_BOOT.FALLBACK 0 = 0 ∧
        s'.rd F.LT_BOOT.FLASH0_OK 0 = (if f0 then 1 else 0) ∧ s'.rd F.LT_BOOT.FLASH1_OK 0 = (if f1 then 1 else 0) ∧
        OtherRegisters s s' (fun r _ => r = .LT_BOOT ∨ r = .LT_EVLOG_HEAD)) ∧
      (s.lt.standing.isSome = true → f0 = false → f1 = false →
        ∃ s', exec (.coatLoad f0 f1) s = .next s' ∧ based s' ∧ s'.coat.slotA = Coat.empty ∧ s'.lk.slots = [] ∧
          s'.lk.routes = [] ∧ s'.rd F.LT_BOOT.FALLBACK 0 = 1 ∧ s'.rd F.LT_BOOT.REASON 0 = 3))) ∧
  (∀ (s : State) (t0 : Nat), s.lt.transition = some (.start t0) →
    (s.lt.loaded = .none ∨ s.rd F.SY_COAT_STATUS.GENERATION 0 ≠ 0 → exec .coatActive s = .next s) ∧
    (s.lt.loaded ≠ .none → s.rd F.SY_COAT_STATUS.GENERATION 0 = 0 →
      ∃ s', exec .coatActive s = .next s' ∧ active s' ∧ s'.cnt.reportDue = s.clk.ns + 100000000 ∧
        powerState s' = (if s.rd F.LT_DOMAIN.SLICE_OFF 0 = 0 ∧ s.rd F.LT_DOMAIN.PORT_OFF 0 = 0 then 4 else 3) ∧
        s'.rd F.LT_BOOT.LOAD_MS 0 = min 65535 ((s.clk.lath - t0) / 1000000) ∧ ∀ core, core < 4 → started s s' core)) ∧
  (∀ (s : State) (t0 : Nat) (f0 f1 : Bool), s.lt.transition = some (.dormantToHoldover t0) → s.lt.loaded ≠ .none →
    s.rd F.SY_COAT_STATUS.GENERATION 0 = 0 →
    ∃ s', exec (.dormantToHoldover f0 f1) s = .next s' ∧ active s' ∧ powerState s' = 2 ∧ s'.lt.held = true ∧
      s'.lt.standingDue = decide (s.lt.loaded = .holdover) ∧ started s s' 0 ∧ started s s' 3) ∧
  (∀ s : State,
    (s.lt.standingDue = false ∨ recoating s = true → exec .standingCoatLoaded s = .next s) ∧
    (s.lt.standingDue = true → recoating s = false → ∃ s', exec .standingCoatLoaded s = .next s' ∧ s'.lt.standingDue = false ∧
      s'.lt.standingStaged = true ∧
      (s.lt.standing = none → coatOf s' (stagedSlot s) = Coat.empty ∧ coatOf s' (activeSlot s) = coatOf s (activeSlot s) ∧
        (∀ k x, Sparse.get none s'.lk.slots k = some x → x.coat &&& bitS s = 0) ∧
        (∀ k x, Sparse.get none s'.lk.routes k = some x → x.coat &&& bitS s = 0)))) ∧
  (∀ (s : State) (n o : Nat) (wd : Width) (v : Word),
    let mine := 0x58 + s.lt.straps
    exec (.smbusBlockWrite n o wd v false) s = .next s ∧ exec (.smbusSetOffset n o false) s = .next s ∧
    (n ≠ mine → exec (.smbusBlockWrite n o wd v true) s = .next s ∧ exec (.smbusSetOffset n o true) s = .next s ∧
      exec (.smbusBlockRead n) s = .next s) ∧
    (∃ s', exec (.smbusBlockWrite mine o wd v true) s = .next s' ∧ exec (.registerWrite (.csr .smbus o wd v)) s = .next s') ∧
    (s.lt.running = true →
      (∃ s', exec (.smbusSetOffset mine o true) s = .next s' ∧ s'.lt.smbOffset = o % 2 ^ 32 ∧ s'.csr = s.csr) ∧
      (∀ (r : Reg) (i w : Nat), RegOk r i w → (regDesc r).bits ≠ 32 → r ≠ .PT_TS_FIFO →
        s.lt.smbOffset = regOffset r i w → s.lt.smbOffset % 8 = 0 →
        reachable s .smbus (regOffset r i w) (.reg r (regInst r 0 i) w) = true →
        ∃ s', exec (.smbusBlockRead mine) s = .next s' ∧ s'.lt.smbOffset = (s.lt.smbOffset + 8) % 2 ^ 32 ∧ s'.csr = s.csr ∧
          s'.out = s.out ++ [.smbus (BitVec.ofNat 64 (shownWord s r (regInst r 0 i) w))]))) ∧
  (∀ (s : State) (fn w : Nat) (v : Word), Reaches s (.fn fn) .PC_FILTER 0 w →
    ∃ s', exec (.pcFilterWrite fn w v) s = .next s' ∧ AccessOnly s s' ∧
      (w = 0 → s'.rd F.PC_FILTER.PRIV fn = bitsOf v.toNat 0 3 ∧ s'.rd F.PC_FILTER.TC fn = bitsOf v.toNat 16 8) ∧
      (w = 1 → s'.rd F.PC_FILTER.ADDR_LO fn = v.toNat) ∧
      (w = 2 → s'.rd F.PC_FILTER.ADDR_HI fn = max v.toNat (s.rd F.PC_FILTER.ADDR_LO fn)) ∧
      OtherRegisters s s' (fun r i => r = .PC_FILTER ∧ i = fn) ∧
      ∀ e, e < 1280 → e ≠ 1232 → Sparse.get 0 s'.cnt.banks (pairKey fn e) = 0) ∧
  (∀ s : State,
    (s.cnt.reporting = false → exec .healthReport s = .next s) ∧
    (s.cnt.reporting = true → s.clk.diesOn = true →
      let seq := s.rd F.PC_HR_STATUS.SEQ 0 + 1
      let due := max s.clk.ns s.cnt.reportDue
      ∃ (b : List Byte) (s' : State), exec .healthReport s = .next s' ∧ b.length = 256 ∧
        slice b 0 4 = [0x48, 0x4C, 0x54, 0x48] ∧ slice b 8 4 = leBytes 4 (crc32c (splice b 8 (leBytes 4 0))) ∧
        slice b 12 4 = leBytes 4 (s.rd F.SY_COAT_STATUS.GENERATION 0) ∧ slice b 16 8 = leBytes 8 seq ∧
        Sparse.get [] s'.cnt.lathStore (seq % 64) = b ∧ s'.rd F.PC_HR_STATUS.SEQ 0 = seq % 2 ^ 64 ∧ s'.clk.ns = due ∧
        s'.cnt.reportDue = s.cnt.reportDue + 100000000 ∧ (tnLink s = true → TwinMsg.report b ∈ s'.tn.tx) ∧
        (s.on F.PC_HR_CTRL.EN 0 = true → busMaster s 0 = true →
          hostBytes s' (s.rd F.PC_HR_CTRL.BASE 0 * 256 + 256 * (seq % 2 ^ s.rd F.PC_HR_CTRL.LOG2_SLOTS 0)) 256 = b) ∧
        (s.on F.PC_HR_CTRL.EN 0 = false ∨ busMaster s 0 = false → s'.host = s.host ∧
          Sparse.get 0 s'.cnt.events 1156 = min (Sparse.get 0 s.cnt.events 1156 + 1) (2 ^ 64 - 1))) ∧
    (∀ report : List Byte, report.length = 256 →
      (tnLink s = false → exec (.twinReportReceive report) s = .next s) ∧
      (tnLink s = true → ∃ s', exec (.twinReportReceive report) s = .next s' ∧
        s'.rdWide F.TN_TWIN_REPORT.REPORT 0 = leNat report ∧ OtherRegisters s s' (fun r _ => r = .TN_TWIN_REPORT))))
end

