-- ==== Sys2Proof/Laws/Keys.lean ====
section
/-! SUPPORT. Keys of the sparse stores: different indices have different keys. -/

namespace Sys2Proof.Machine

theorem pairKey_eq (a b : Nat) : pairKey a b = Nat.pair a b := rfl

@[simp] theorem pairKey_inj {a b c d : Nat} : pairKey a b = pairKey c d ↔ a = c ∧ b = d := by
  rw [pairKey_eq, pairKey_eq, Nat.pair_eq_pair]

theorem tripleKey_inj {a b c a' b' c' : Nat} :
    tripleKey a b c = tripleKey a' b' c' ↔ (a = a' ∧ b = b') ∧ c = c' := by
  simp [tripleKey]

end Sys2Proof.Machine
end

