-- ==== Sys2Proof/Laws/Sparse.lean ====
section
/-! SUPPORT. The sparse store: what a read gives after a write, and that a write keeps the canonical form. -/

namespace Sys2Proof.Machine

variable {α : Type}

/-- Every key of the list is at least `k`. -/
def Sparse.above (k : Nat) (m : Sparse α) : Prop := ∀ e ∈ m, k ≤ e.1

theorem Sparse.rising_cons (a : Nat) (v : α) (m : Sparse α) :
    Sparse.rising ((a, v) :: m) = true ↔ Sparse.above (a + 1) m ∧ Sparse.rising m = true := by
  induction m generalizing a v with
  | nil => simp [Sparse.rising, Sparse.above]
  | cons e m ih =>
    obtain ⟨b, w⟩ := e
    rw [Sparse.rising, Bool.and_eq_true, decide_eq_true_eq, ih]
    constructor
    · rintro ⟨hab, hm, hr⟩
      refine ⟨fun e he => ?_, hm, hr⟩
      rcases List.mem_cons.mp he with rfl | he
      · exact hab
      · have := hm e he; omega
    · rintro ⟨ha, hm, hr⟩
      exact ⟨ha _ (List.mem_cons_self ..), hm, hr⟩

theorem Sparse.rising_filter (p : Nat × α → Bool) (m : Sparse α) (h : Sparse.rising m = true) :
    Sparse.rising (m.filter p) = true := by
  induction m with
  | nil => rfl
  | cons e m ih =>
    obtain ⟨a, v⟩ := e
    obtain ⟨ha, hm⟩ := (Sparse.rising_cons a v m).mp h
    rw [List.filter_cons]
    split
    · exact (Sparse.rising_cons ..).mpr ⟨fun e he => ha e (List.mem_of_mem_filter he), ih hm⟩
    · exact ih hm

theorem Sparse.mem_insert (m : Sparse α) (k : Nat) (v : α) (e : Nat × α) (h : e ∈ Sparse.insert m k v) :
    e = (k, v) ∨ e ∈ m := by
  induction m with
  | nil => simpa [Sparse.insert] using h
  | cons c m ih =>
    unfold Sparse.insert at h
    split at h
    · rcases List.mem_cons.mp h with h | h
      · simp [h]
      · rcases ih h with h | h <;> simp [h]
    · simpa using h

theorem Sparse.insert_rising (m : Sparse α) (k : Nat) (v : α) (h : Sparse.rising m = true)
    (hk : ∀ e ∈ m, e.1 ≠ k) : Sparse.rising (Sparse.insert m k v) = true := by
  induction m with
  | nil => rfl
  | cons c m ih =>
    obtain ⟨a, w⟩ := c
    obtain ⟨ha, hm⟩ := (Sparse.rising_cons a w m).mp h
    have hak : a ≠ k := hk (a, w) (List.mem_cons_self ..)
    unfold Sparse.insert
    split
    · refine (Sparse.rising_cons ..).mpr ⟨fun e he => ?_, ih hm (fun e he => hk e (List.mem_cons_of_mem _ he))⟩
      rcases Sparse.mem_insert _ _ _ _ he with rfl | he
      · show a + 1 ≤ k; omega
      · exact ha e he
    · refine (Sparse.rising_cons ..).mpr ⟨fun e he => ?_, h⟩
      rcases List.mem_cons.mp he with rfl | he
      · show k + 1 ≤ a; omega
      · have := ha e he; omega

theorem Sparse.put_rising (m : Sparse α) (k : Nat) (v : Option α) (h : Sparse.rising m = true) :
    Sparse.rising (Sparse.put m k v) = true := by
  have hr := Sparse.rising_filter (fun e => decide (e.1 ≠ k)) m h
  cases v with
  | none => exact hr
  | some x => exact Sparse.insert_rising _ _ _ hr (fun e he => by simpa using List.of_mem_filter he)

theorem Sparse.get_filter_same (d : α) (m : Sparse α) (k : Nat) :
    Sparse.get d (m.filter (fun e => decide (e.1 ≠ k))) k = d := by
  induction m with
  | nil => rfl
  | cons e m ih =>
    rw [List.filter_cons]
    split
    · next h => rw [Sparse.get, if_neg (by simpa using h), ih]
    · exact ih

theorem Sparse.get_filter_other (d : α) (m : Sparse α) (k j : Nat) (hj : j ≠ k) :
    Sparse.get d (m.filter (fun e => decide (e.1 ≠ k))) j = Sparse.get d m j := by
  induction m with
  | nil => rfl
  | cons e m ih =>
    obtain ⟨a, v⟩ := e
    rw [List.filter_cons]
    split
    · rw [Sparse.get, Sparse.get, ih]
    · next h =>
      have : a = k := by simpa using h
      rw [Sparse.get, if_neg (by omega), ih]

theorem Sparse.get_insert_same (d : α) (m : Sparse α) (k : Nat) (v : α) :
    Sparse.get d (Sparse.insert m k v) k = v := by
  induction m with
  | nil => simp [Sparse.insert, Sparse.get]
  | cons c m ih =>
    unfold Sparse.insert
    split
    · rw [Sparse.get, if_neg (by omega), ih]
    · simp [Sparse.get]

theorem Sparse.get_insert_other (d : α) (m : Sparse α) (k j : Nat) (v : α) (hj : j ≠ k) :
    Sparse.get d (Sparse.insert m k v) j = Sparse.get d m j := by
  induction m with
  | nil => simp [Sparse.insert, Sparse.get]; omega
  | cons c m ih =>
    unfold Sparse.insert
    split
    · rw [Sparse.get, Sparse.get, ih]
    · rw [Sparse.get, if_neg (by omega)]

/-- A read after a write to the same key gives the value written. -/
@[simp] theorem Sparse.get_put_same (d : α) (m : Sparse α) (k : Nat) (v : Option α) :
    Sparse.get d (Sparse.put m k v) k = v.getD d := by
  cases v with
  | none => exact Sparse.get_filter_same d m k
  | some x => exact Sparse.get_insert_same d _ k x

/-- A write leaves every other key alone. -/
theorem Sparse.get_put_other (d : α) (m : Sparse α) (k j : Nat) (v : Option α) (hj : j ≠ k) :
    Sparse.get d (Sparse.put m k v) j = Sparse.get d m j := by
  cases v with
  | none => exact Sparse.get_filter_other d m k j hj
  | some x => exact (Sparse.get_insert_other d _ k j x hj).trans (Sparse.get_filter_other d m k j hj)

variable [DecidableEq α]

/-- A read after a write to the same key gives the value written. -/
@[simp] theorem Sparse.get_set_same (d : α) (m : Sparse α) (k : Nat) (v : α) :
    Sparse.get d (Sparse.set d m k v) k = v := by
  unfold Sparse.set
  rw [Sparse.get_put_same]
  split <;> simp_all

/-- A write leaves every other key alone. -/
theorem Sparse.get_set_other (d : α) (m : Sparse α) (k j : Nat) (v : α) (hj : j ≠ k) :
    Sparse.get d (Sparse.set d m k v) j = Sparse.get d m j :=
  Sparse.get_put_other d m k j _ hj

/-- A write keeps the canonical form. -/
theorem Sparse.set_wf (d : α) (m : Sparse α) (k : Nat) (v : α) (h : Sparse.wf d m = true) :
    Sparse.wf d (Sparse.set d m k v) = true := by
  unfold Sparse.wf at h ⊢
  rw [Bool.and_eq_true, List.all_eq_true] at h ⊢
  refine ⟨Sparse.put_rising m k _ h.1, fun e he => ?_⟩
  unfold Sparse.set Sparse.put at he
  split at he
  · exact h.2 e (List.mem_of_mem_filter he)
  · next x hx =>
    rcases Sparse.mem_insert _ _ _ _ he with rfl | he
    · rw [decide_eq_true_eq]
      rintro rfl
      split at hx <;> simp_all
    · exact h.2 e (List.mem_of_mem_filter he)

end Sys2Proof.Machine
end

