-- ==== Sys2Proof/Laws/State.lean ====
section
/-! SUPPORT. State: one lemma per operation that stores a part of the state and per field that it leaves as it was. -/

namespace Sys2Proof.Machine

/-! #### `State.setWord` -/

@[simp] theorem State.setWord_pending (s : State) (r : Reg) (i w : Nat) (v : Word) :
    (s.setWord r i w v).pending = s.pending := rfl
@[simp] theorem State.setWord_free (s : State) (r : Reg) (i w : Nat) (v : Word) : (s.setWord r i w v).free = s.free := rfl
@[simp] theorem State.setWord_out (s : State) (r : Reg) (i w : Nat) (v : Word) : (s.setWord r i w v).out = s.out := rfl
@[simp] theorem State.setWord_clk (s : State) (r : Reg) (i w : Nat) (v : Word) : (s.setWord r i w v).clk = s.clk := rfl
@[simp] theorem State.setWord_host (s : State) (r : Reg) (i w : Nat) (v : Word) : (s.setWord r i w v).host = s.host := rfl
@[simp] theorem State.setWord_cnt (s : State) (r : Reg) (i w : Nat) (v : Word) : (s.setWord r i w v).cnt = s.cnt := rfl
@[simp] theorem State.setWord_coat (s : State) (r : Reg) (i w : Nat) (v : Word) : (s.setWord r i w v).coat = s.coat := rfl
@[simp] theorem State.setWord_hn (s : State) (r : Reg) (i w : Nat) (v : Word) : (s.setWord r i w v).hn = s.hn := rfl
@[simp] theorem State.setWord_lk (s : State) (r : Reg) (i w : Nat) (v : Word) : (s.setWord r i w v).lk = s.lk := rfl
@[simp] theorem State.setWord_bm (s : State) (r : Reg) (i w : Nat) (v : Word) : (s.setWord r i w v).bm = s.bm := rfl
@[simp] theorem State.setWord_q (s : State) (r : Reg) (i w : Nat) (v : Word) : (s.setWord r i w v).q = s.q := rfl
@[simp] theorem State.setWord_fb (s : State) (r : Reg) (i w : Nat) (v : Word) : (s.setWord r i w v).fb = s.fb := rfl
@[simp] theorem State.setWord_tn (s : State) (r : Reg) (i w : Nat) (v : Word) : (s.setWord r i w v).tn = s.tn := rfl
@[simp] theorem State.setWord_fr (s : State) (r : Reg) (i w : Nat) (v : Word) : (s.setWord r i w v).fr = s.fr := rfl
@[simp] theorem State.setWord_tw (s : State) (r : Reg) (i w : Nat) (v : Word) : (s.setWord r i w v).tw = s.tw := rfl
@[simp] theorem State.setWord_hb (s : State) (r : Reg) (i w : Nat) (v : Word) : (s.setWord r i w v).hb = s.hb := rfl
@[simp] theorem State.setWord_pt (s : State) (r : Reg) (i w : Nat) (v : Word) : (s.setWord r i w v).pt = s.pt := rfl
@[simp] theorem State.setWord_sv (s : State) (r : Reg) (i w : Nat) (v : Word) : (s.setWord r i w v).sv = s.sv := rfl
@[simp] theorem State.setWord_lt (s : State) (r : Reg) (i w : Nat) (v : Word) : (s.setWord r i w v).lt = s.lt := rfl

/-! #### `State.wr` -/

@[simp] theorem State.wr_pending (s : State) (f : FId) (i v : Nat) : (s.wr f i v).pending = s.pending := rfl
@[simp] theorem State.wr_free (s : State) (f : FId) (i v : Nat) : (s.wr f i v).free = s.free := rfl
@[simp] theorem State.wr_out (s : State) (f : FId) (i v : Nat) : (s.wr f i v).out = s.out := rfl
@[simp] theorem State.wr_clk (s : State) (f : FId) (i v : Nat) : (s.wr f i v).clk = s.clk := rfl
@[simp] theorem State.wr_host (s : State) (f : FId) (i v : Nat) : (s.wr f i v).host = s.host := rfl
@[simp] theorem State.wr_cnt (s : State) (f : FId) (i v : Nat) : (s.wr f i v).cnt = s.cnt := rfl
@[simp] theorem State.wr_coat (s : State) (f : FId) (i v : Nat) : (s.wr f i v).coat = s.coat := rfl
@[simp] theorem State.wr_hn (s : State) (f : FId) (i v : Nat) : (s.wr f i v).hn = s.hn := rfl
@[simp] theorem State.wr_lk (s : State) (f : FId) (i v : Nat) : (s.wr f i v).lk = s.lk := rfl
@[simp] theorem State.wr_bm (s : State) (f : FId) (i v : Nat) : (s.wr f i v).bm = s.bm := rfl
@[simp] theorem State.wr_q (s : State) (f : FId) (i v : Nat) : (s.wr f i v).q = s.q := rfl
@[simp] theorem State.wr_fb (s : State) (f : FId) (i v : Nat) : (s.wr f i v).fb = s.fb := rfl
@[simp] theorem State.wr_tn (s : State) (f : FId) (i v : Nat) : (s.wr f i v).tn = s.tn := rfl
@[simp] theorem State.wr_fr (s : State) (f : FId) (i v : Nat) : (s.wr f i v).fr = s.fr := rfl
@[simp] theorem State.wr_tw (s : State) (f : FId) (i v : Nat) : (s.wr f i v).tw = s.tw := rfl
@[simp] theorem State.wr_hb (s : State) (f : FId) (i v : Nat) : (s.wr f i v).hb = s.hb := rfl
@[simp] theorem State.wr_pt (s : State) (f : FId) (i v : Nat) : (s.wr f i v).pt = s.pt := rfl
@[simp] theorem State.wr_sv (s : State) (f : FId) (i v : Nat) : (s.wr f i v).sv = s.sv := rfl
@[simp] theorem State.wr_lt (s : State) (f : FId) (i v : Nat) : (s.wr f i v).lt = s.lt := rfl

/-! #### `State.resetRegs` -/

@[simp] theorem State.resetRegs_pending (s : State) (p : Reg → Bool) : (s.resetRegs p).pending = s.pending := rfl
@[simp] theorem State.resetRegs_free (s : State) (p : Reg → Bool) : (s.resetRegs p).free = s.free := rfl
@[simp] theorem State.resetRegs_out (s : State) (p : Reg → Bool) : (s.resetRegs p).out = s.out := rfl
@[simp] theorem State.resetRegs_clk (s : State) (p : Reg → Bool) : (s.resetRegs p).clk = s.clk := rfl
@[simp] theorem State.resetRegs_host (s : State) (p : Reg → Bool) : (s.resetRegs p).host = s.host := rfl
@[simp] theorem State.resetRegs_cnt (s : State) (p : Reg → Bool) : (s.resetRegs p).cnt = s.cnt := rfl
@[simp] theorem State.resetRegs_coat (s : State) (p : Reg → Bool) : (s.resetRegs p).coat = s.coat := rfl
@[simp] theorem State.resetRegs_hn (s : State) (p : Reg → Bool) : (s.resetRegs p).hn = s.hn := rfl
@[simp] theorem State.resetRegs_lk (s : State) (p : Reg → Bool) : (s.resetRegs p).lk = s.lk := rfl
@[simp] theorem State.resetRegs_bm (s : State) (p : Reg → Bool) : (s.resetRegs p).bm = s.bm := rfl
@[simp] theorem State.resetRegs_q (s : State) (p : Reg → Bool) : (s.resetRegs p).q = s.q := rfl
@[simp] theorem State.resetRegs_fb (s : State) (p : Reg → Bool) : (s.resetRegs p).fb = s.fb := rfl
@[simp] theorem State.resetRegs_tn (s : State) (p : Reg → Bool) : (s.resetRegs p).tn = s.tn := rfl
@[simp] theorem State.resetRegs_fr (s : State) (p : Reg → Bool) : (s.resetRegs p).fr = s.fr := rfl
@[simp] theorem State.resetRegs_tw (s : State) (p : Reg → Bool) : (s.resetRegs p).tw = s.tw := rfl
@[simp] theorem State.resetRegs_hb (s : State) (p : Reg → Bool) : (s.resetRegs p).hb = s.hb := rfl
@[simp] theorem State.resetRegs_pt (s : State) (p : Reg → Bool) : (s.resetRegs p).pt = s.pt := rfl
@[simp] theorem State.resetRegs_sv (s : State) (p : Reg → Bool) : (s.resetRegs p).sv = s.sv := rfl
@[simp] theorem State.resetRegs_lt (s : State) (p : Reg → Bool) : (s.resetRegs p).lt = s.lt := rfl

/-! #### `State.emit` -/

@[simp] theorem State.emit_pending (s : State) (o : Out) : (s.emit o).pending = s.pending := rfl
@[simp] theorem State.emit_free (s : State) (o : Out) : (s.emit o).free = s.free := rfl
@[simp] theorem State.emit_clk (s : State) (o : Out) : (s.emit o).clk = s.clk := rfl
@[simp] theorem State.emit_csr (s : State) (o : Out) : (s.emit o).csr = s.csr := rfl
@[simp] theorem State.emit_host (s : State) (o : Out) : (s.emit o).host = s.host := rfl
@[simp] theorem State.emit_cnt (s : State) (o : Out) : (s.emit o).cnt = s.cnt := rfl
@[simp] theorem State.emit_coat (s : State) (o : Out) : (s.emit o).coat = s.coat := rfl
@[simp] theorem State.emit_hn (s : State) (o : Out) : (s.emit o).hn = s.hn := rfl
@[simp] theorem State.emit_lk (s : State) (o : Out) : (s.emit o).lk = s.lk := rfl
@[simp] theorem State.emit_bm (s : State) (o : Out) : (s.emit o).bm = s.bm := rfl
@[simp] theorem State.emit_q (s : State) (o : Out) : (s.emit o).q = s.q := rfl
@[simp] theorem State.emit_fb (s : State) (o : Out) : (s.emit o).fb = s.fb := rfl
@[simp] theorem State.emit_tn (s : State) (o : Out) : (s.emit o).tn = s.tn := rfl
@[simp] theorem State.emit_fr (s : State) (o : Out) : (s.emit o).fr = s.fr := rfl
@[simp] theorem State.emit_tw (s : State) (o : Out) : (s.emit o).tw = s.tw := rfl
@[simp] theorem State.emit_hb (s : State) (o : Out) : (s.emit o).hb = s.hb := rfl
@[simp] theorem State.emit_pt (s : State) (o : Out) : (s.emit o).pt = s.pt := rfl
@[simp] theorem State.emit_sv (s : State) (o : Out) : (s.emit o).sv = s.sv := rfl
@[simp] theorem State.emit_lt (s : State) (o : Out) : (s.emit o).lt = s.lt := rfl

/-! #### `State.count` -/

@[simp] theorem State.count_pending (s : State) (e : Nat) (obj : Option Nat) (n : Nat) (a : Attr) :
    (s.count e obj n a).pending = s.pending := rfl
@[simp] theorem State.count_free (s : State) (e : Nat) (obj : Option Nat) (n : Nat) (a : Attr) :
    (s.count e obj n a).free = s.free := rfl
@[simp] theorem State.count_out (s : State) (e : Nat) (obj : Option Nat) (n : Nat) (a : Attr) :
    (s.count e obj n a).out = s.out := rfl
@[simp] theorem State.count_clk (s : State) (e : Nat) (obj : Option Nat) (n : Nat) (a : Attr) :
    (s.count e obj n a).clk = s.clk := rfl
@[simp] theorem State.count_csr (s : State) (e : Nat) (obj : Option Nat) (n : Nat) (a : Attr) :
    (s.count e obj n a).csr = s.csr := rfl
@[simp] theorem State.count_host (s : State) (e : Nat) (obj : Option Nat) (n : Nat) (a : Attr) :
    (s.count e obj n a).host = s.host := rfl
@[simp] theorem State.count_coat (s : State) (e : Nat) (obj : Option Nat) (n : Nat) (a : Attr) :
    (s.count e obj n a).coat = s.coat := rfl
@[simp] theorem State.count_hn (s : State) (e : Nat) (obj : Option Nat) (n : Nat) (a : Attr) :
    (s.count e obj n a).hn = s.hn := rfl
@[simp] theorem State.count_lk (s : State) (e : Nat) (obj : Option Nat) (n : Nat) (a : Attr) :
    (s.count e obj n a).lk = s.lk := rfl
@[simp] theorem State.count_bm (s : State) (e : Nat) (obj : Option Nat) (n : Nat) (a : Attr) :
    (s.count e obj n a).bm = s.bm := rfl
@[simp] theorem State.count_q (s : State) (e : Nat) (obj : Option Nat) (n : Nat) (a : Attr) : (s.count e obj n a).q = s.q := rfl
@[simp] theorem State.count_fb (s : State) (e : Nat) (obj : Option Nat) (n : Nat) (a : Attr) :
    (s.count e obj n a).fb = s.fb := rfl
@[simp] theorem State.count_tn (s : State) (e : Nat) (obj : Option Nat) (n : Nat) (a : Attr) :
    (s.count e obj n a).tn = s.tn := rfl
@[simp] theorem State.count_fr (s : State) (e : Nat) (obj : Option Nat) (n : Nat) (a : Attr) :
    (s.count e obj n a).fr = s.fr := rfl
@[simp] theorem State.count_tw (s : State) (e : Nat) (obj : Option Nat) (n : Nat) (a : Attr) :
    (s.count e obj n a).tw = s.tw := rfl
@[simp] theorem State.count_hb (s : State) (e : Nat) (obj : Option Nat) (n : Nat) (a : Attr) :
    (s.count e obj n a).hb = s.hb := rfl
@[simp] theorem State.count_pt (s : State) (e : Nat) (obj : Option Nat) (n : Nat) (a : Attr) :
    (s.count e obj n a).pt = s.pt := rfl
@[simp] theorem State.count_sv (s : State) (e : Nat) (obj : Option Nat) (n : Nat) (a : Attr) :
    (s.count e obj n a).sv = s.sv := rfl
@[simp] theorem State.count_lt (s : State) (e : Nat) (obj : Option Nat) (n : Nat) (a : Attr) :
    (s.count e obj n a).lt = s.lt := rfl

/-! #### `State.countPkt` -/

@[simp] theorem State.countPkt_pending (s : State) (e obj : Nat) (p : Pkt) : (s.countPkt e obj p).pending = s.pending := rfl
@[simp] theorem State.countPkt_free (s : State) (e obj : Nat) (p : Pkt) : (s.countPkt e obj p).free = s.free := rfl
@[simp] theorem State.countPkt_out (s : State) (e obj : Nat) (p : Pkt) : (s.countPkt e obj p).out = s.out := rfl
@[simp] theorem State.countPkt_clk (s : State) (e obj : Nat) (p : Pkt) : (s.countPkt e obj p).clk = s.clk := rfl
@[simp] theorem State.countPkt_csr (s : State) (e obj : Nat) (p : Pkt) : (s.countPkt e obj p).csr = s.csr := rfl
@[simp] theorem State.countPkt_host (s : State) (e obj : Nat) (p : Pkt) : (s.countPkt e obj p).host = s.host := rfl
@[simp] theorem State.countPkt_coat (s : State) (e obj : Nat) (p : Pkt) : (s.countPkt e obj p).coat = s.coat := rfl
@[simp] theorem State.countPkt_hn (s : State) (e obj : Nat) (p : Pkt) : (s.countPkt e obj p).hn = s.hn := rfl
@[simp] theorem State.countPkt_lk (s : State) (e obj : Nat) (p : Pkt) : (s.countPkt e obj p).lk = s.lk := rfl
@[simp] theorem State.countPkt_bm (s : State) (e obj : Nat) (p : Pkt) : (s.countPkt e obj p).bm = s.bm := rfl
@[simp] theorem State.countPkt_q (s : State) (e obj : Nat) (p : Pkt) : (s.countPkt e obj p).q = s.q := rfl
@[simp] theorem State.countPkt_fb (s : State) (e obj : Nat) (p : Pkt) : (s.countPkt e obj p).fb = s.fb := rfl
@[simp] theorem State.countPkt_tn (s : State) (e obj : Nat) (p : Pkt) : (s.countPkt e obj p).tn = s.tn := rfl
@[simp] theorem State.countPkt_fr (s : State) (e obj : Nat) (p : Pkt) : (s.countPkt e obj p).fr = s.fr := rfl
@[simp] theorem State.countPkt_tw (s : State) (e obj : Nat) (p : Pkt) : (s.countPkt e obj p).tw = s.tw := rfl
@[simp] theorem State.countPkt_hb (s : State) (e obj : Nat) (p : Pkt) : (s.countPkt e obj p).hb = s.hb := rfl
@[simp] theorem State.countPkt_pt (s : State) (e obj : Nat) (p : Pkt) : (s.countPkt e obj p).pt = s.pt := rfl
@[simp] theorem State.countPkt_sv (s : State) (e obj : Nat) (p : Pkt) : (s.countPkt e obj p).sv = s.sv := rfl
@[simp] theorem State.countPkt_lt (s : State) (e obj : Nat) (p : Pkt) : (s.countPkt e obj p).lt = s.lt := rfl

/-! #### `State.setThread` -/

@[simp] theorem State.setThread_pending (s : State) (t : Tid) (th : Thread) : (s.setThread t th).pending = s.pending := rfl
@[simp] theorem State.setThread_free (s : State) (t : Tid) (th : Thread) : (s.setThread t th).free = s.free := rfl
@[simp] theorem State.setThread_out (s : State) (t : Tid) (th : Thread) : (s.setThread t th).out = s.out := rfl
@[simp] theorem State.setThread_clk (s : State) (t : Tid) (th : Thread) : (s.setThread t th).clk = s.clk := rfl
@[simp] theorem State.setThread_csr (s : State) (t : Tid) (th : Thread) : (s.setThread t th).csr = s.csr := rfl
@[simp] theorem State.setThread_host (s : State) (t : Tid) (th : Thread) : (s.setThread t th).host = s.host := rfl
@[simp] theorem State.setThread_cnt (s : State) (t : Tid) (th : Thread) : (s.setThread t th).cnt = s.cnt := rfl
@[simp] theorem State.setThread_coat (s : State) (t : Tid) (th : Thread) : (s.setThread t th).coat = s.coat := rfl
@[simp] theorem State.setThread_lk (s : State) (t : Tid) (th : Thread) : (s.setThread t th).lk = s.lk := rfl
@[simp] theorem State.setThread_bm (s : State) (t : Tid) (th : Thread) : (s.setThread t th).bm = s.bm := rfl
@[simp] theorem State.setThread_q (s : State) (t : Tid) (th : Thread) : (s.setThread t th).q = s.q := rfl
@[simp] theorem State.setThread_fb (s : State) (t : Tid) (th : Thread) : (s.setThread t th).fb = s.fb := rfl
@[simp] theorem State.setThread_tn (s : State) (t : Tid) (th : Thread) : (s.setThread t th).tn = s.tn := rfl
@[simp] theorem State.setThread_fr (s : State) (t : Tid) (th : Thread) : (s.setThread t th).fr = s.fr := rfl
@[simp] theorem State.setThread_tw (s : State) (t : Tid) (th : Thread) : (s.setThread t th).tw = s.tw := rfl
@[simp] theorem State.setThread_hb (s : State) (t : Tid) (th : Thread) : (s.setThread t th).hb = s.hb := rfl
@[simp] theorem State.setThread_pt (s : State) (t : Tid) (th : Thread) : (s.setThread t th).pt = s.pt := rfl
@[simp] theorem State.setThread_sv (s : State) (t : Tid) (th : Thread) : (s.setThread t th).sv = s.sv := rfl
@[simp] theorem State.setThread_lt (s : State) (t : Tid) (th : Thread) : (s.setThread t th).lt = s.lt := rfl

/-! #### `State.updThread` -/

@[simp] theorem State.updThread_pending (s : State) (t : Tid) (f : Thread → Thread) : (s.updThread t f).pending = s.pending := rfl
@[simp] theorem State.updThread_free (s : State) (t : Tid) (f : Thread → Thread) : (s.updThread t f).free = s.free := rfl
@[simp] theorem State.updThread_out (s : State) (t : Tid) (f : Thread → Thread) : (s.updThread t f).out = s.out := rfl
@[simp] theorem State.updThread_clk (s : State) (t : Tid) (f : Thread → Thread) : (s.updThread t f).clk = s.clk := rfl
@[simp] theorem State.updThread_csr (s : State) (t : Tid) (f : Thread → Thread) : (s.updThread t f).csr = s.csr := rfl
@[simp] theorem State.updThread_host (s : State) (t : Tid) (f : Thread → Thread) : (s.updThread t f).host = s.host := rfl
@[simp] theorem State.updThread_cnt (s : State) (t : Tid) (f : Thread → Thread) : (s.updThread t f).cnt = s.cnt := rfl
@[simp] theorem State.updThread_coat (s : State) (t : Tid) (f : Thread → Thread) : (s.updThread t f).coat = s.coat := rfl
@[simp] theorem State.updThread_lk (s : State) (t : Tid) (f : Thread → Thread) : (s.updThread t f).lk = s.lk := rfl
@[simp] theorem State.updThread_bm (s : State) (t : Tid) (f : Thread → Thread) : (s.updThread t f).bm = s.bm := rfl
@[simp] theorem State.updThread_q (s : State) (t : Tid) (f : Thread → Thread) : (s.updThread t f).q = s.q := rfl
@[simp] theorem State.updThread_fb (s : State) (t : Tid) (f : Thread → Thread) : (s.updThread t f).fb = s.fb := rfl
@[simp] theorem State.updThread_tn (s : State) (t : Tid) (f : Thread → Thread) : (s.updThread t f).tn = s.tn := rfl
@[simp] theorem State.updThread_fr (s : State) (t : Tid) (f : Thread → Thread) : (s.updThread t f).fr = s.fr := rfl
@[simp] theorem State.updThread_tw (s : State) (t : Tid) (f : Thread → Thread) : (s.updThread t f).tw = s.tw := rfl
@[simp] theorem State.updThread_hb (s : State) (t : Tid) (f : Thread → Thread) : (s.updThread t f).hb = s.hb := rfl
@[simp] theorem State.updThread_pt (s : State) (t : Tid) (f : Thread → Thread) : (s.updThread t f).pt = s.pt := rfl
@[simp] theorem State.updThread_sv (s : State) (t : Tid) (f : Thread → Thread) : (s.updThread t f).sv = s.sv := rfl
@[simp] theorem State.updThread_lt (s : State) (t : Tid) (f : Thread → Thread) : (s.updThread t f).lt = s.lt := rfl

/-! #### `State.setChan` -/

@[simp] theorem State.setChan_pending (s : State) (core ch : Nat) (c : Chan) : (s.setChan core ch c).pending = s.pending := rfl
@[simp] theorem State.setChan_free (s : State) (core ch : Nat) (c : Chan) : (s.setChan core ch c).free = s.free := rfl
@[simp] theorem State.setChan_out (s : State) (core ch : Nat) (c : Chan) : (s.setChan core ch c).out = s.out := rfl
@[simp] theorem State.setChan_clk (s : State) (core ch : Nat) (c : Chan) : (s.setChan core ch c).clk = s.clk := rfl
@[simp] theorem State.setChan_csr (s : State) (core ch : Nat) (c : Chan) : (s.setChan core ch c).csr = s.csr := rfl
@[simp] theorem State.setChan_host (s : State) (core ch : Nat) (c : Chan) : (s.setChan core ch c).host = s.host := rfl
@[simp] theorem State.setChan_cnt (s : State) (core ch : Nat) (c : Chan) : (s.setChan core ch c).cnt = s.cnt := rfl
@[simp] theorem State.setChan_coat (s : State) (core ch : Nat) (c : Chan) : (s.setChan core ch c).coat = s.coat := rfl
@[simp] theorem State.setChan_lk (s : State) (core ch : Nat) (c : Chan) : (s.setChan core ch c).lk = s.lk := rfl
@[simp] theorem State.setChan_bm (s : State) (core ch : Nat) (c : Chan) : (s.setChan core ch c).bm = s.bm := rfl
@[simp] theorem State.setChan_q (s : State) (core ch : Nat) (c : Chan) : (s.setChan core ch c).q = s.q := rfl
@[simp] theorem State.setChan_fb (s : State) (core ch : Nat) (c : Chan) : (s.setChan core ch c).fb = s.fb := rfl
@[simp] theorem State.setChan_tn (s : State) (core ch : Nat) (c : Chan) : (s.setChan core ch c).tn = s.tn := rfl
@[simp] theorem State.setChan_fr (s : State) (core ch : Nat) (c : Chan) : (s.setChan core ch c).fr = s.fr := rfl
@[simp] theorem State.setChan_tw (s : State) (core ch : Nat) (c : Chan) : (s.setChan core ch c).tw = s.tw := rfl
@[simp] theorem State.setChan_hb (s : State) (core ch : Nat) (c : Chan) : (s.setChan core ch c).hb = s.hb := rfl
@[simp] theorem State.setChan_pt (s : State) (core ch : Nat) (c : Chan) : (s.setChan core ch c).pt = s.pt := rfl
@[simp] theorem State.setChan_sv (s : State) (core ch : Nat) (c : Chan) : (s.setChan core ch c).sv = s.sv := rfl
@[simp] theorem State.setChan_lt (s : State) (core ch : Nat) (c : Chan) : (s.setChan core ch c).lt = s.lt := rfl

/-! #### `State.setLmem` -/

@[simp] theorem State.setLmem_pending (s : State) (core a : Nat) (bs : List Byte) :
    (s.setLmem core a bs).pending = s.pending := rfl
@[simp] theorem State.setLmem_free (s : State) (core a : Nat) (bs : List Byte) : (s.setLmem core a bs).free = s.free := rfl
@[simp] theorem State.setLmem_out (s : State) (core a : Nat) (bs : List Byte) : (s.setLmem core a bs).out = s.out := rfl
@[simp] theorem State.setLmem_clk (s : State) (core a : Nat) (bs : List Byte) : (s.setLmem core a bs).clk = s.clk := rfl
@[simp] theorem State.setLmem_csr (s : State) (core a : Nat) (bs : List Byte) : (s.setLmem core a bs).csr = s.csr := rfl
@[simp] theorem State.setLmem_host (s : State) (core a : Nat) (bs : List Byte) : (s.setLmem core a bs).host = s.host := rfl
@[simp] theorem State.setLmem_cnt (s : State) (core a : Nat) (bs : List Byte) : (s.setLmem core a bs).cnt = s.cnt := rfl
@[simp] theorem State.setLmem_coat (s : State) (core a : Nat) (bs : List Byte) : (s.setLmem core a bs).coat = s.coat := rfl
@[simp] theorem State.setLmem_lk (s : State) (core a : Nat) (bs : List Byte) : (s.setLmem core a bs).lk = s.lk := rfl
@[simp] theorem State.setLmem_bm (s : State) (core a : Nat) (bs : List Byte) : (s.setLmem core a bs).bm = s.bm := rfl
@[simp] theorem State.setLmem_q (s : State) (core a : Nat) (bs : List Byte) : (s.setLmem core a bs).q = s.q := rfl
@[simp] theorem State.setLmem_fb (s : State) (core a : Nat) (bs : List Byte) : (s.setLmem core a bs).fb = s.fb := rfl
@[simp] theorem State.setLmem_tn (s : State) (core a : Nat) (bs : List Byte) : (s.setLmem core a bs).tn = s.tn := rfl
@[simp] theorem State.setLmem_fr (s : State) (core a : Nat) (bs : List Byte) : (s.setLmem core a bs).fr = s.fr := rfl
@[simp] theorem State.setLmem_tw (s : State) (core a : Nat) (bs : List Byte) : (s.setLmem core a bs).tw = s.tw := rfl
@[simp] theorem State.setLmem_hb (s : State) (core a : Nat) (bs : List Byte) : (s.setLmem core a bs).hb = s.hb := rfl
@[simp] theorem State.setLmem_pt (s : State) (core a : Nat) (bs : List Byte) : (s.setLmem core a bs).pt = s.pt := rfl
@[simp] theorem State.setLmem_sv (s : State) (core a : Nat) (bs : List Byte) : (s.setLmem core a bs).sv = s.sv := rfl
@[simp] theorem State.setLmem_lt (s : State) (core a : Nat) (bs : List Byte) : (s.setLmem core a bs).lt = s.lt := rfl

/-! #### `State.setObj` -/

@[simp] theorem State.setObj_pending (s : State) (side : Side) (o : Nat) (v : ObjSt) :
    (s.setObj side o v).pending = s.pending := rfl
@[simp] theorem State.setObj_free (s : State) (side : Side) (o : Nat) (v : ObjSt) : (s.setObj side o v).free = s.free := rfl
@[simp] theorem State.setObj_out (s : State) (side : Side) (o : Nat) (v : ObjSt) : (s.setObj side o v).out = s.out := rfl
@[simp] theorem State.setObj_clk (s : State) (side : Side) (o : Nat) (v : ObjSt) : (s.setObj side o v).clk = s.clk := rfl
@[simp] theorem State.setObj_csr (s : State) (side : Side) (o : Nat) (v : ObjSt) : (s.setObj side o v).csr = s.csr := rfl
@[simp] theorem State.setObj_host (s : State) (side : Side) (o : Nat) (v : ObjSt) : (s.setObj side o v).host = s.host := rfl
@[simp] theorem State.setObj_cnt (s : State) (side : Side) (o : Nat) (v : ObjSt) : (s.setObj side o v).cnt = s.cnt := rfl
@[simp] theorem State.setObj_coat (s : State) (side : Side) (o : Nat) (v : ObjSt) : (s.setObj side o v).coat = s.coat := rfl
@[simp] theorem State.setObj_lk (s : State) (side : Side) (o : Nat) (v : ObjSt) : (s.setObj side o v).lk = s.lk := rfl
@[simp] theorem State.setObj_bm (s : State) (side : Side) (o : Nat) (v : ObjSt) : (s.setObj side o v).bm = s.bm := rfl
@[simp] theorem State.setObj_q (s : State) (side : Side) (o : Nat) (v : ObjSt) : (s.setObj side o v).q = s.q := rfl
@[simp] theorem State.setObj_fb (s : State) (side : Side) (o : Nat) (v : ObjSt) : (s.setObj side o v).fb = s.fb := rfl
@[simp] theorem State.setObj_tn (s : State) (side : Side) (o : Nat) (v : ObjSt) : (s.setObj side o v).tn = s.tn := rfl
@[simp] theorem State.setObj_fr (s : State) (side : Side) (o : Nat) (v : ObjSt) : (s.setObj side o v).fr = s.fr := rfl
@[simp] theorem State.setObj_tw (s : State) (side : Side) (o : Nat) (v : ObjSt) : (s.setObj side o v).tw = s.tw := rfl
@[simp] theorem State.setObj_hb (s : State) (side : Side) (o : Nat) (v : ObjSt) : (s.setObj side o v).hb = s.hb := rfl
@[simp] theorem State.setObj_pt (s : State) (side : Side) (o : Nat) (v : ObjSt) : (s.setObj side o v).pt = s.pt := rfl
@[simp] theorem State.setObj_sv (s : State) (side : Side) (o : Nat) (v : ObjSt) : (s.setObj side o v).sv = s.sv := rfl
@[simp] theorem State.setObj_lt (s : State) (side : Side) (o : Nat) (v : ObjSt) : (s.setObj side o v).lt = s.lt := rfl

/-! #### `State.setSlice` -/

@[simp] theorem State.setSlice_pending (s : State) (n : Nat) (v : SliceSt) : (s.setSlice n v).pending = s.pending := rfl
@[simp] theorem State.setSlice_free (s : State) (n : Nat) (v : SliceSt) : (s.setSlice n v).free = s.free := rfl
@[simp] theorem State.setSlice_out (s : State) (n : Nat) (v : SliceSt) : (s.setSlice n v).out = s.out := rfl
@[simp] theorem State.setSlice_clk (s : State) (n : Nat) (v : SliceSt) : (s.setSlice n v).clk = s.clk := rfl
@[simp] theorem State.setSlice_csr (s : State) (n : Nat) (v : SliceSt) : (s.setSlice n v).csr = s.csr := rfl
@[simp] theorem State.setSlice_host (s : State) (n : Nat) (v : SliceSt) : (s.setSlice n v).host = s.host := rfl
@[simp] theorem State.setSlice_cnt (s : State) (n : Nat) (v : SliceSt) : (s.setSlice n v).cnt = s.cnt := rfl
@[simp] theorem State.setSlice_coat (s : State) (n : Nat) (v : SliceSt) : (s.setSlice n v).coat = s.coat := rfl
@[simp] theorem State.setSlice_lk (s : State) (n : Nat) (v : SliceSt) : (s.setSlice n v).lk = s.lk := rfl
@[simp] theorem State.setSlice_bm (s : State) (n : Nat) (v : SliceSt) : (s.setSlice n v).bm = s.bm := rfl
@[simp] theorem State.setSlice_q (s : State) (n : Nat) (v : SliceSt) : (s.setSlice n v).q = s.q := rfl
@[simp] theorem State.setSlice_fb (s : State) (n : Nat) (v : SliceSt) : (s.setSlice n v).fb = s.fb := rfl
@[simp] theorem State.setSlice_tn (s : State) (n : Nat) (v : SliceSt) : (s.setSlice n v).tn = s.tn := rfl
@[simp] theorem State.setSlice_fr (s : State) (n : Nat) (v : SliceSt) : (s.setSlice n v).fr = s.fr := rfl
@[simp] theorem State.setSlice_tw (s : State) (n : Nat) (v : SliceSt) : (s.setSlice n v).tw = s.tw := rfl
@[simp] theorem State.setSlice_hb (s : State) (n : Nat) (v : SliceSt) : (s.setSlice n v).hb = s.hb := rfl
@[simp] theorem State.setSlice_pt (s : State) (n : Nat) (v : SliceSt) : (s.setSlice n v).pt = s.pt := rfl
@[simp] theorem State.setSlice_sv (s : State) (n : Nat) (v : SliceSt) : (s.setSlice n v).sv = s.sv := rfl
@[simp] theorem State.setSlice_lt (s : State) (n : Nat) (v : SliceSt) : (s.setSlice n v).lt = s.lt := rfl

/-! #### `State.setOps` -/

@[simp] theorem State.setOps_pending (s : State) (uid n : Nat) :
    (s.setOps uid n).pending = s.pending := by unfold State.setOps; split <;> rfl
@[simp] theorem State.setOps_free (s : State) (uid n : Nat) :
    (s.setOps uid n).free = s.free := by unfold State.setOps; split <;> rfl
@[simp] theorem State.setOps_out (s : State) (uid n : Nat) : (s.setOps uid n).out = s.out := by unfold State.setOps; split <;> rfl
@[simp] theorem State.setOps_clk (s : State) (uid n : Nat) : (s.setOps uid n).clk = s.clk := by unfold State.setOps; split <;> rfl
@[simp] theorem State.setOps_csr (s : State) (uid n : Nat) : (s.setOps uid n).csr = s.csr := by unfold State.setOps; split <;> rfl
@[simp] theorem State.setOps_host (s : State) (uid n : Nat) :
    (s.setOps uid n).host = s.host := by unfold State.setOps; split <;> rfl
@[simp] theorem State.setOps_cnt (s : State) (uid n : Nat) : (s.setOps uid n).cnt = s.cnt := by unfold State.setOps; split <;> rfl
@[simp] theorem State.setOps_coat (s : State) (uid n : Nat) :
    (s.setOps uid n).coat = s.coat := by unfold State.setOps; split <;> rfl
@[simp] theorem State.setOps_lk (s : State) (uid n : Nat) : (s.setOps uid n).lk = s.lk := by unfold State.setOps; split <;> rfl
@[simp] theorem State.setOps_bm (s : State) (uid n : Nat) : (s.setOps uid n).bm = s.bm := by unfold State.setOps; split <;> rfl
@[simp] theorem State.setOps_q (s : State) (uid n : Nat) : (s.setOps uid n).q = s.q := by unfold State.setOps; split <;> rfl
@[simp] theorem State.setOps_fb (s : State) (uid n : Nat) : (s.setOps uid n).fb = s.fb := by unfold State.setOps; split <;> rfl
@[simp] theorem State.setOps_tn (s : State) (uid n : Nat) : (s.setOps uid n).tn = s.tn := by unfold State.setOps; split <;> rfl
@[simp] theorem State.setOps_fr (s : State) (uid n : Nat) : (s.setOps uid n).fr = s.fr := by unfold State.setOps; split <;> rfl
@[simp] theorem State.setOps_tw (s : State) (uid n : Nat) : (s.setOps uid n).tw = s.tw := by unfold State.setOps; split <;> rfl
@[simp] theorem State.setOps_hb (s : State) (uid n : Nat) : (s.setOps uid n).hb = s.hb := by unfold State.setOps; split <;> rfl
@[simp] theorem State.setOps_pt (s : State) (uid n : Nat) : (s.setOps uid n).pt = s.pt := by unfold State.setOps; split <;> rfl
@[simp] theorem State.setOps_sv (s : State) (uid n : Nat) : (s.setOps uid n).sv = s.sv := by unfold State.setOps; split <;> rfl
@[simp] theorem State.setOps_lt (s : State) (uid n : Nat) : (s.setOps uid n).lt = s.lt := by unfold State.setOps; split <;> rfl

/-! #### `State.setBuf` -/

@[simp] theorem State.setBuf_pending (s : State) (h : Nat) (b : Option Buf) : (s.setBuf h b).pending = s.pending := rfl
@[simp] theorem State.setBuf_free (s : State) (h : Nat) (b : Option Buf) : (s.setBuf h b).free = s.free := rfl
@[simp] theorem State.setBuf_out (s : State) (h : Nat) (b : Option Buf) : (s.setBuf h b).out = s.out := rfl
@[simp] theorem State.setBuf_clk (s : State) (h : Nat) (b : Option Buf) : (s.setBuf h b).clk = s.clk := rfl
@[simp] theorem State.setBuf_csr (s : State) (h : Nat) (b : Option Buf) : (s.setBuf h b).csr = s.csr := rfl
@[simp] theorem State.setBuf_host (s : State) (h : Nat) (b : Option Buf) : (s.setBuf h b).host = s.host := rfl
@[simp] theorem State.setBuf_cnt (s : State) (h : Nat) (b : Option Buf) : (s.setBuf h b).cnt = s.cnt := rfl
@[simp] theorem State.setBuf_coat (s : State) (h : Nat) (b : Option Buf) : (s.setBuf h b).coat = s.coat := rfl
@[simp] theorem State.setBuf_hn (s : State) (h : Nat) (b : Option Buf) : (s.setBuf h b).hn = s.hn := rfl
@[simp] theorem State.setBuf_lk (s : State) (h : Nat) (b : Option Buf) : (s.setBuf h b).lk = s.lk := rfl
@[simp] theorem State.setBuf_q (s : State) (h : Nat) (b : Option Buf) : (s.setBuf h b).q = s.q := rfl
@[simp] theorem State.setBuf_fb (s : State) (h : Nat) (b : Option Buf) : (s.setBuf h b).fb = s.fb := rfl
@[simp] theorem State.setBuf_tn (s : State) (h : Nat) (b : Option Buf) : (s.setBuf h b).tn = s.tn := rfl
@[simp] theorem State.setBuf_fr (s : State) (h : Nat) (b : Option Buf) : (s.setBuf h b).fr = s.fr := rfl
@[simp] theorem State.setBuf_tw (s : State) (h : Nat) (b : Option Buf) : (s.setBuf h b).tw = s.tw := rfl
@[simp] theorem State.setBuf_hb (s : State) (h : Nat) (b : Option Buf) : (s.setBuf h b).hb = s.hb := rfl
@[simp] theorem State.setBuf_pt (s : State) (h : Nat) (b : Option Buf) : (s.setBuf h b).pt = s.pt := rfl
@[simp] theorem State.setBuf_sv (s : State) (h : Nat) (b : Option Buf) : (s.setBuf h b).sv = s.sv := rfl
@[simp] theorem State.setBuf_lt (s : State) (h : Nat) (b : Option Buf) : (s.setBuf h b).lt = s.lt := rfl

/-! #### `State.setReasm` -/

@[simp] theorem State.setReasm_pending (s : State) (k : Nat) (r : Reasm) : (s.setReasm k r).pending = s.pending := rfl
@[simp] theorem State.setReasm_free (s : State) (k : Nat) (r : Reasm) : (s.setReasm k r).free = s.free := rfl
@[simp] theorem State.setReasm_out (s : State) (k : Nat) (r : Reasm) : (s.setReasm k r).out = s.out := rfl
@[simp] theorem State.setReasm_clk (s : State) (k : Nat) (r : Reasm) : (s.setReasm k r).clk = s.clk := rfl
@[simp] theorem State.setReasm_csr (s : State) (k : Nat) (r : Reasm) : (s.setReasm k r).csr = s.csr := rfl
@[simp] theorem State.setReasm_host (s : State) (k : Nat) (r : Reasm) : (s.setReasm k r).host = s.host := rfl
@[simp] theorem State.setReasm_cnt (s : State) (k : Nat) (r : Reasm) : (s.setReasm k r).cnt = s.cnt := rfl
@[simp] theorem State.setReasm_coat (s : State) (k : Nat) (r : Reasm) : (s.setReasm k r).coat = s.coat := rfl
@[simp] theorem State.setReasm_hn (s : State) (k : Nat) (r : Reasm) : (s.setReasm k r).hn = s.hn := rfl
@[simp] theorem State.setReasm_lk (s : State) (k : Nat) (r : Reasm) : (s.setReasm k r).lk = s.lk := rfl
@[simp] theorem State.setReasm_bm (s : State) (k : Nat) (r : Reasm) : (s.setReasm k r).bm = s.bm := rfl
@[simp] theorem State.setReasm_q (s : State) (k : Nat) (r : Reasm) : (s.setReasm k r).q = s.q := rfl
@[simp] theorem State.setReasm_tn (s : State) (k : Nat) (r : Reasm) : (s.setReasm k r).tn = s.tn := rfl
@[simp] theorem State.setReasm_fr (s : State) (k : Nat) (r : Reasm) : (s.setReasm k r).fr = s.fr := rfl
@[simp] theorem State.setReasm_tw (s : State) (k : Nat) (r : Reasm) : (s.setReasm k r).tw = s.tw := rfl
@[simp] theorem State.setReasm_hb (s : State) (k : Nat) (r : Reasm) : (s.setReasm k r).hb = s.hb := rfl
@[simp] theorem State.setReasm_pt (s : State) (k : Nat) (r : Reasm) : (s.setReasm k r).pt = s.pt := rfl
@[simp] theorem State.setReasm_sv (s : State) (k : Nat) (r : Reasm) : (s.setReasm k r).sv = s.sv := rfl
@[simp] theorem State.setReasm_lt (s : State) (k : Nat) (r : Reasm) : (s.setReasm k r).lt = s.lt := rfl

/-! #### `State.setRx` -/

@[simp] theorem State.setRx_pending (s : State) (k : Nat) (r : RxStream) : (s.setRx k r).pending = s.pending := rfl
@[simp] theorem State.setRx_free (s : State) (k : Nat) (r : RxStream) : (s.setRx k r).free = s.free := rfl
@[simp] theorem State.setRx_out (s : State) (k : Nat) (r : RxStream) : (s.setRx k r).out = s.out := rfl
@[simp] theorem State.setRx_clk (s : State) (k : Nat) (r : RxStream) : (s.setRx k r).clk = s.clk := rfl
@[simp] theorem State.setRx_csr (s : State) (k : Nat) (r : RxStream) : (s.setRx k r).csr = s.csr := rfl
@[simp] theorem State.setRx_host (s : State) (k : Nat) (r : RxStream) : (s.setRx k r).host = s.host := rfl
@[simp] theorem State.setRx_cnt (s : State) (k : Nat) (r : RxStream) : (s.setRx k r).cnt = s.cnt := rfl
@[simp] theorem State.setRx_coat (s : State) (k : Nat) (r : RxStream) : (s.setRx k r).coat = s.coat := rfl
@[simp] theorem State.setRx_hn (s : State) (k : Nat) (r : RxStream) : (s.setRx k r).hn = s.hn := rfl
@[simp] theorem State.setRx_lk (s : State) (k : Nat) (r : RxStream) : (s.setRx k r).lk = s.lk := rfl
@[simp] theorem State.setRx_bm (s : State) (k : Nat) (r : RxStream) : (s.setRx k r).bm = s.bm := rfl
@[simp] theorem State.setRx_q (s : State) (k : Nat) (r : RxStream) : (s.setRx k r).q = s.q := rfl
@[simp] theorem State.setRx_tn (s : State) (k : Nat) (r : RxStream) : (s.setRx k r).tn = s.tn := rfl
@[simp] theorem State.setRx_fr (s : State) (k : Nat) (r : RxStream) : (s.setRx k r).fr = s.fr := rfl
@[simp] theorem State.setRx_tw (s : State) (k : Nat) (r : RxStream) : (s.setRx k r).tw = s.tw := rfl
@[simp] theorem State.setRx_hb (s : State) (k : Nat) (r : RxStream) : (s.setRx k r).hb = s.hb := rfl
@[simp] theorem State.setRx_pt (s : State) (k : Nat) (r : RxStream) : (s.setRx k r).pt = s.pt := rfl
@[simp] theorem State.setRx_sv (s : State) (k : Nat) (r : RxStream) : (s.setRx k r).sv = s.sv := rfl
@[simp] theorem State.setRx_lt (s : State) (k : Nat) (r : RxStream) : (s.setRx k r).lt = s.lt := rfl

/-! #### `State.setArb` -/

@[simp] theorem State.setArb_pending (s : State) (d : Nat) (a : Arb) : (s.setArb d a).pending = s.pending := rfl
@[simp] theorem State.setArb_free (s : State) (d : Nat) (a : Arb) : (s.setArb d a).free = s.free := rfl
@[simp] theorem State.setArb_out (s : State) (d : Nat) (a : Arb) : (s.setArb d a).out = s.out := rfl
@[simp] theorem State.setArb_clk (s : State) (d : Nat) (a : Arb) : (s.setArb d a).clk = s.clk := rfl
@[simp] theorem State.setArb_csr (s : State) (d : Nat) (a : Arb) : (s.setArb d a).csr = s.csr := rfl
@[simp] theorem State.setArb_host (s : State) (d : Nat) (a : Arb) : (s.setArb d a).host = s.host := rfl
@[simp] theorem State.setArb_cnt (s : State) (d : Nat) (a : Arb) : (s.setArb d a).cnt = s.cnt := rfl
@[simp] theorem State.setArb_coat (s : State) (d : Nat) (a : Arb) : (s.setArb d a).coat = s.coat := rfl
@[simp] theorem State.setArb_hn (s : State) (d : Nat) (a : Arb) : (s.setArb d a).hn = s.hn := rfl
@[simp] theorem State.setArb_lk (s : State) (d : Nat) (a : Arb) : (s.setArb d a).lk = s.lk := rfl
@[simp] theorem State.setArb_bm (s : State) (d : Nat) (a : Arb) : (s.setArb d a).bm = s.bm := rfl
@[simp] theorem State.setArb_q (s : State) (d : Nat) (a : Arb) : (s.setArb d a).q = s.q := rfl
@[simp] theorem State.setArb_tn (s : State) (d : Nat) (a : Arb) : (s.setArb d a).tn = s.tn := rfl
@[simp] theorem State.setArb_fr (s : State) (d : Nat) (a : Arb) : (s.setArb d a).fr = s.fr := rfl
@[simp] theorem State.setArb_tw (s : State) (d : Nat) (a : Arb) : (s.setArb d a).tw = s.tw := rfl
@[simp] theorem State.setArb_hb (s : State) (d : Nat) (a : Arb) : (s.setArb d a).hb = s.hb := rfl
@[simp] theorem State.setArb_pt (s : State) (d : Nat) (a : Arb) : (s.setArb d a).pt = s.pt := rfl
@[simp] theorem State.setArb_sv (s : State) (d : Nat) (a : Arb) : (s.setArb d a).sv = s.sv := rfl
@[simp] theorem State.setArb_lt (s : State) (d : Nat) (a : Arb) : (s.setArb d a).lt = s.lt := rfl

/-! #### `State.setReq` -/

@[simp] theorem State.setReq_pending (s : State) (dest : Nat) (r : ExpReq) : (s.setReq dest r).pending = s.pending := rfl
@[simp] theorem State.setReq_free (s : State) (dest : Nat) (r : ExpReq) : (s.setReq dest r).free = s.free := rfl
@[simp] theorem State.setReq_out (s : State) (dest : Nat) (r : ExpReq) : (s.setReq dest r).out = s.out := rfl
@[simp] theorem State.setReq_clk (s : State) (dest : Nat) (r : ExpReq) : (s.setReq dest r).clk = s.clk := rfl
@[simp] theorem State.setReq_csr (s : State) (dest : Nat) (r : ExpReq) : (s.setReq dest r).csr = s.csr := rfl
@[simp] theorem State.setReq_host (s : State) (dest : Nat) (r : ExpReq) : (s.setReq dest r).host = s.host := rfl
@[simp] theorem State.setReq_cnt (s : State) (dest : Nat) (r : ExpReq) : (s.setReq dest r).cnt = s.cnt := rfl
@[simp] theorem State.setReq_coat (s : State) (dest : Nat) (r : ExpReq) : (s.setReq dest r).coat = s.coat := rfl
@[simp] theorem State.setReq_hn (s : State) (dest : Nat) (r : ExpReq) : (s.setReq dest r).hn = s.hn := rfl
@[simp] theorem State.setReq_lk (s : State) (dest : Nat) (r : ExpReq) : (s.setReq dest r).lk = s.lk := rfl
@[simp] theorem State.setReq_bm (s : State) (dest : Nat) (r : ExpReq) : (s.setReq dest r).bm = s.bm := rfl
@[simp] theorem State.setReq_q (s : State) (dest : Nat) (r : ExpReq) : (s.setReq dest r).q = s.q := rfl
@[simp] theorem State.setReq_tn (s : State) (dest : Nat) (r : ExpReq) : (s.setReq dest r).tn = s.tn := rfl
@[simp] theorem State.setReq_fr (s : State) (dest : Nat) (r : ExpReq) : (s.setReq dest r).fr = s.fr := rfl
@[simp] theorem State.setReq_tw (s : State) (dest : Nat) (r : ExpReq) : (s.setReq dest r).tw = s.tw := rfl
@[simp] theorem State.setReq_hb (s : State) (dest : Nat) (r : ExpReq) : (s.setReq dest r).hb = s.hb := rfl
@[simp] theorem State.setReq_pt (s : State) (dest : Nat) (r : ExpReq) : (s.setReq dest r).pt = s.pt := rfl
@[simp] theorem State.setReq_sv (s : State) (dest : Nat) (r : ExpReq) : (s.setReq dest r).sv = s.sv := rfl
@[simp] theorem State.setReq_lt (s : State) (dest : Nat) (r : ExpReq) : (s.setReq dest r).lt = s.lt := rfl

/-! #### `State.setStream` -/

@[simp] theorem State.setStream_pending (s : State) (n : Nat) (v : Stream) : (s.setStream n v).pending = s.pending := rfl
@[simp] theorem State.setStream_free (s : State) (n : Nat) (v : Stream) : (s.setStream n v).free = s.free := rfl
@[simp] theorem State.setStream_out (s : State) (n : Nat) (v : Stream) : (s.setStream n v).out = s.out := rfl
@[simp] theorem State.setStream_clk (s : State) (n : Nat) (v : Stream) : (s.setStream n v).clk = s.clk := rfl
@[simp] theorem State.setStream_csr (s : State) (n : Nat) (v : Stream) : (s.setStream n v).csr = s.csr := rfl
@[simp] theorem State.setStream_host (s : State) (n : Nat) (v : Stream) : (s.setStream n v).host = s.host := rfl
@[simp] theorem State.setStream_cnt (s : State) (n : Nat) (v : Stream) : (s.setStream n v).cnt = s.cnt := rfl
@[simp] theorem State.setStream_coat (s : State) (n : Nat) (v : Stream) : (s.setStream n v).coat = s.coat := rfl
@[simp] theorem State.setStream_hn (s : State) (n : Nat) (v : Stream) : (s.setStream n v).hn = s.hn := rfl
@[simp] theorem State.setStream_lk (s : State) (n : Nat) (v : Stream) : (s.setStream n v).lk = s.lk := rfl
@[simp] theorem State.setStream_bm (s : State) (n : Nat) (v : Stream) : (s.setStream n v).bm = s.bm := rfl
@[simp] theorem State.setStream_q (s : State) (n : Nat) (v : Stream) : (s.setStream n v).q = s.q := rfl
@[simp] theorem State.setStream_fb (s : State) (n : Nat) (v : Stream) : (s.setStream n v).fb = s.fb := rfl
@[simp] theorem State.setStream_fr (s : State) (n : Nat) (v : Stream) : (s.setStream n v).fr = s.fr := rfl
@[simp] theorem State.setStream_tw (s : State) (n : Nat) (v : Stream) : (s.setStream n v).tw = s.tw := rfl
@[simp] theorem State.setStream_hb (s : State) (n : Nat) (v : Stream) : (s.setStream n v).hb = s.hb := rfl
@[simp] theorem State.setStream_pt (s : State) (n : Nat) (v : Stream) : (s.setStream n v).pt = s.pt := rfl
@[simp] theorem State.setStream_sv (s : State) (n : Nat) (v : Stream) : (s.setStream n v).sv = s.sv := rfl
@[simp] theorem State.setStream_lt (s : State) (n : Nat) (v : Stream) : (s.setStream n v).lt = s.lt := rfl

/-! #### `State.setFr` -/

@[simp] theorem State.setFr_pending (s : State) (f : FrescoSt → FrescoSt) : (s.setFr f).pending = s.pending := rfl
@[simp] theorem State.setFr_free (s : State) (f : FrescoSt → FrescoSt) : (s.setFr f).free = s.free := rfl
@[simp] theorem State.setFr_out (s : State) (f : FrescoSt → FrescoSt) : (s.setFr f).out = s.out := rfl
@[simp] theorem State.setFr_clk (s : State) (f : FrescoSt → FrescoSt) : (s.setFr f).clk = s.clk := rfl
@[simp] theorem State.setFr_csr (s : State) (f : FrescoSt → FrescoSt) : (s.setFr f).csr = s.csr := rfl
@[simp] theorem State.setFr_host (s : State) (f : FrescoSt → FrescoSt) : (s.setFr f).host = s.host := rfl
@[simp] theorem State.setFr_cnt (s : State) (f : FrescoSt → FrescoSt) : (s.setFr f).cnt = s.cnt := rfl
@[simp] theorem State.setFr_coat (s : State) (f : FrescoSt → FrescoSt) : (s.setFr f).coat = s.coat := rfl
@[simp] theorem State.setFr_hn (s : State) (f : FrescoSt → FrescoSt) : (s.setFr f).hn = s.hn := rfl
@[simp] theorem State.setFr_lk (s : State) (f : FrescoSt → FrescoSt) : (s.setFr f).lk = s.lk := rfl
@[simp] theorem State.setFr_bm (s : State) (f : FrescoSt → FrescoSt) : (s.setFr f).bm = s.bm := rfl
@[simp] theorem State.setFr_q (s : State) (f : FrescoSt → FrescoSt) : (s.setFr f).q = s.q := rfl
@[simp] theorem State.setFr_fb (s : State) (f : FrescoSt → FrescoSt) : (s.setFr f).fb = s.fb := rfl
@[simp] theorem State.setFr_tn (s : State) (f : FrescoSt → FrescoSt) : (s.setFr f).tn = s.tn := rfl
@[simp] theorem State.setFr_tw (s : State) (f : FrescoSt → FrescoSt) : (s.setFr f).tw = s.tw := rfl
@[simp] theorem State.setFr_hb (s : State) (f : FrescoSt → FrescoSt) : (s.setFr f).hb = s.hb := rfl
@[simp] theorem State.setFr_pt (s : State) (f : FrescoSt → FrescoSt) : (s.setFr f).pt = s.pt := rfl
@[simp] theorem State.setFr_sv (s : State) (f : FrescoSt → FrescoSt) : (s.setFr f).sv = s.sv := rfl
@[simp] theorem State.setFr_lt (s : State) (f : FrescoSt → FrescoSt) : (s.setFr f).lt = s.lt := rfl

/-! #### `State.setRoce` -/

@[simp] theorem State.setRoce_pending (s : State) (t : Nat) (r : RoceSt) : (s.setRoce t r).pending = s.pending := rfl
@[simp] theorem State.setRoce_free (s : State) (t : Nat) (r : RoceSt) : (s.setRoce t r).free = s.free := rfl
@[simp] theorem State.setRoce_out (s : State) (t : Nat) (r : RoceSt) : (s.setRoce t r).out = s.out := rfl
@[simp] theorem State.setRoce_clk (s : State) (t : Nat) (r : RoceSt) : (s.setRoce t r).clk = s.clk := rfl
@[simp] theorem State.setRoce_csr (s : State) (t : Nat) (r : RoceSt) : (s.setRoce t r).csr = s.csr := rfl
@[simp] theorem State.setRoce_host (s : State) (t : Nat) (r : RoceSt) : (s.setRoce t r).host = s.host := rfl
@[simp] theorem State.setRoce_cnt (s : State) (t : Nat) (r : RoceSt) : (s.setRoce t r).cnt = s.cnt := rfl
@[simp] theorem State.setRoce_coat (s : State) (t : Nat) (r : RoceSt) : (s.setRoce t r).coat = s.coat := rfl
@[simp] theorem State.setRoce_hn (s : State) (t : Nat) (r : RoceSt) : (s.setRoce t r).hn = s.hn := rfl
@[simp] theorem State.setRoce_lk (s : State) (t : Nat) (r : RoceSt) : (s.setRoce t r).lk = s.lk := rfl
@[simp] theorem State.setRoce_bm (s : State) (t : Nat) (r : RoceSt) : (s.setRoce t r).bm = s.bm := rfl
@[simp] theorem State.setRoce_q (s : State) (t : Nat) (r : RoceSt) : (s.setRoce t r).q = s.q := rfl
@[simp] theorem State.setRoce_fb (s : State) (t : Nat) (r : RoceSt) : (s.setRoce t r).fb = s.fb := rfl
@[simp] theorem State.setRoce_tn (s : State) (t : Nat) (r : RoceSt) : (s.setRoce t r).tn = s.tn := rfl
@[simp] theorem State.setRoce_tw (s : State) (t : Nat) (r : RoceSt) : (s.setRoce t r).tw = s.tw := rfl
@[simp] theorem State.setRoce_hb (s : State) (t : Nat) (r : RoceSt) : (s.setRoce t r).hb = s.hb := rfl
@[simp] theorem State.setRoce_pt (s : State) (t : Nat) (r : RoceSt) : (s.setRoce t r).pt = s.pt := rfl
@[simp] theorem State.setRoce_sv (s : State) (t : Nat) (r : RoceSt) : (s.setRoce t r).sv = s.sv := rfl
@[simp] theorem State.setRoce_lt (s : State) (t : Nat) (r : RoceSt) : (s.setRoce t r).lt = s.lt := rfl

/-! #### `State.setLt` -/

@[simp] theorem State.setLt_pending (s : State) (f : LathSt → LathSt) : (s.setLt f).pending = s.pending := rfl
@[simp] theorem State.setLt_free (s : State) (f : LathSt → LathSt) : (s.setLt f).free = s.free := rfl
@[simp] theorem State.setLt_out (s : State) (f : LathSt → LathSt) : (s.setLt f).out = s.out := rfl
@[simp] theorem State.setLt_clk (s : State) (f : LathSt → LathSt) : (s.setLt f).clk = s.clk := rfl
@[simp] theorem State.setLt_csr (s : State) (f : LathSt → LathSt) : (s.setLt f).csr = s.csr := rfl
@[simp] theorem State.setLt_host (s : State) (f : LathSt → LathSt) : (s.setLt f).host = s.host := rfl
@[simp] theorem State.setLt_cnt (s : State) (f : LathSt → LathSt) : (s.setLt f).cnt = s.cnt := rfl
@[simp] theorem State.setLt_coat (s : State) (f : LathSt → LathSt) : (s.setLt f).coat = s.coat := rfl
@[simp] theorem State.setLt_hn (s : State) (f : LathSt → LathSt) : (s.setLt f).hn = s.hn := rfl
@[simp] theorem State.setLt_lk (s : State) (f : LathSt → LathSt) : (s.setLt f).lk = s.lk := rfl
@[simp] theorem State.setLt_bm (s : State) (f : LathSt → LathSt) : (s.setLt f).bm = s.bm := rfl
@[simp] theorem State.setLt_q (s : State) (f : LathSt → LathSt) : (s.setLt f).q = s.q := rfl
@[simp] theorem State.setLt_fb (s : State) (f : LathSt → LathSt) : (s.setLt f).fb = s.fb := rfl
@[simp] theorem State.setLt_tn (s : State) (f : LathSt → LathSt) : (s.setLt f).tn = s.tn := rfl
@[simp] theorem State.setLt_fr (s : State) (f : LathSt → LathSt) : (s.setLt f).fr = s.fr := rfl
@[simp] theorem State.setLt_tw (s : State) (f : LathSt → LathSt) : (s.setLt f).tw = s.tw := rfl
@[simp] theorem State.setLt_hb (s : State) (f : LathSt → LathSt) : (s.setLt f).hb = s.hb := rfl
@[simp] theorem State.setLt_pt (s : State) (f : LathSt → LathSt) : (s.setLt f).pt = s.pt := rfl
@[simp] theorem State.setLt_sv (s : State) (f : LathSt → LathSt) : (s.setLt f).sv = s.sv := rfl

/-! #### `State.setRule` -/

@[simp] theorem State.setRule_pending (s : State) (i : Nat) (r : RuleSt) : (s.setRule i r).pending = s.pending := rfl
@[simp] theorem State.setRule_free (s : State) (i : Nat) (r : RuleSt) : (s.setRule i r).free = s.free := rfl
@[simp] theorem State.setRule_out (s : State) (i : Nat) (r : RuleSt) : (s.setRule i r).out = s.out := rfl
@[simp] theorem State.setRule_clk (s : State) (i : Nat) (r : RuleSt) : (s.setRule i r).clk = s.clk := rfl
@[simp] theorem State.setRule_csr (s : State) (i : Nat) (r : RuleSt) : (s.setRule i r).csr = s.csr := rfl
@[simp] theorem State.setRule_host (s : State) (i : Nat) (r : RuleSt) : (s.setRule i r).host = s.host := rfl
@[simp] theorem State.setRule_cnt (s : State) (i : Nat) (r : RuleSt) : (s.setRule i r).cnt = s.cnt := rfl
@[simp] theorem State.setRule_coat (s : State) (i : Nat) (r : RuleSt) : (s.setRule i r).coat = s.coat := rfl
@[simp] theorem State.setRule_hn (s : State) (i : Nat) (r : RuleSt) : (s.setRule i r).hn = s.hn := rfl
@[simp] theorem State.setRule_lk (s : State) (i : Nat) (r : RuleSt) : (s.setRule i r).lk = s.lk := rfl
@[simp] theorem State.setRule_bm (s : State) (i : Nat) (r : RuleSt) : (s.setRule i r).bm = s.bm := rfl
@[simp] theorem State.setRule_q (s : State) (i : Nat) (r : RuleSt) : (s.setRule i r).q = s.q := rfl
@[simp] theorem State.setRule_fb (s : State) (i : Nat) (r : RuleSt) : (s.setRule i r).fb = s.fb := rfl
@[simp] theorem State.setRule_tn (s : State) (i : Nat) (r : RuleSt) : (s.setRule i r).tn = s.tn := rfl
@[simp] theorem State.setRule_fr (s : State) (i : Nat) (r : RuleSt) : (s.setRule i r).fr = s.fr := rfl
@[simp] theorem State.setRule_tw (s : State) (i : Nat) (r : RuleSt) : (s.setRule i r).tw = s.tw := rfl
@[simp] theorem State.setRule_hb (s : State) (i : Nat) (r : RuleSt) : (s.setRule i r).hb = s.hb := rfl
@[simp] theorem State.setRule_pt (s : State) (i : Nat) (r : RuleSt) : (s.setRule i r).pt = s.pt := rfl
@[simp] theorem State.setRule_sv (s : State) (i : Nat) (r : RuleSt) : (s.setRule i r).sv = s.sv := rfl

/-! #### `State.setSliceDown` -/

@[simp] theorem State.setSliceDown_pending (s : State) (n : Nat) (d : Option SliceDown) :
    (s.setSliceDown n d).pending = s.pending := rfl
@[simp] theorem State.setSliceDown_free (s : State) (n : Nat) (d : Option SliceDown) : (s.setSliceDown n d).free = s.free := rfl
@[simp] theorem State.setSliceDown_out (s : State) (n : Nat) (d : Option SliceDown) : (s.setSliceDown n d).out = s.out := rfl
@[simp] theorem State.setSliceDown_clk (s : State) (n : Nat) (d : Option SliceDown) : (s.setSliceDown n d).clk = s.clk := rfl
@[simp] theorem State.setSliceDown_csr (s : State) (n : Nat) (d : Option SliceDown) : (s.setSliceDown n d).csr = s.csr := rfl
@[simp] theorem State.setSliceDown_host (s : State) (n : Nat) (d : Option SliceDown) : (s.setSliceDown n d).host = s.host := rfl
@[simp] theorem State.setSliceDown_cnt (s : State) (n : Nat) (d : Option SliceDown) : (s.setSliceDown n d).cnt = s.cnt := rfl
@[simp] theorem State.setSliceDown_coat (s : State) (n : Nat) (d : Option SliceDown) : (s.setSliceDown n d).coat = s.coat := rfl
@[simp] theorem State.setSliceDown_hn (s : State) (n : Nat) (d : Option SliceDown) : (s.setSliceDown n d).hn = s.hn := rfl
@[simp] theorem State.setSliceDown_lk (s : State) (n : Nat) (d : Option SliceDown) : (s.setSliceDown n d).lk = s.lk := rfl
@[simp] theorem State.setSliceDown_bm (s : State) (n : Nat) (d : Option SliceDown) : (s.setSliceDown n d).bm = s.bm := rfl
@[simp] theorem State.setSliceDown_q (s : State) (n : Nat) (d : Option SliceDown) : (s.setSliceDown n d).q = s.q := rfl
@[simp] theorem State.setSliceDown_fb (s : State) (n : Nat) (d : Option SliceDown) : (s.setSliceDown n d).fb = s.fb := rfl
@[simp] theorem State.setSliceDown_tn (s : State) (n : Nat) (d : Option SliceDown) : (s.setSliceDown n d).tn = s.tn := rfl
@[simp] theorem State.setSliceDown_fr (s : State) (n : Nat) (d : Option SliceDown) : (s.setSliceDown n d).fr = s.fr := rfl
@[simp] theorem State.setSliceDown_tw (s : State) (n : Nat) (d : Option SliceDown) : (s.setSliceDown n d).tw = s.tw := rfl
@[simp] theorem State.setSliceDown_hb (s : State) (n : Nat) (d : Option SliceDown) : (s.setSliceDown n d).hb = s.hb := rfl
@[simp] theorem State.setSliceDown_pt (s : State) (n : Nat) (d : Option SliceDown) : (s.setSliceDown n d).pt = s.pt := rfl
@[simp] theorem State.setSliceDown_sv (s : State) (n : Nat) (d : Option SliceDown) : (s.setSliceDown n d).sv = s.sv := rfl

/-! #### `State.updLife` -/

@[simp] theorem State.updLife_pending (s : State) (f : Life → Life) : (s.updLife f).pending = s.pending := rfl
@[simp] theorem State.updLife_free (s : State) (f : Life → Life) : (s.updLife f).free = s.free := rfl
@[simp] theorem State.updLife_out (s : State) (f : Life → Life) : (s.updLife f).out = s.out := rfl
@[simp] theorem State.updLife_clk (s : State) (f : Life → Life) : (s.updLife f).clk = s.clk := rfl
@[simp] theorem State.updLife_csr (s : State) (f : Life → Life) : (s.updLife f).csr = s.csr := rfl
@[simp] theorem State.updLife_host (s : State) (f : Life → Life) : (s.updLife f).host = s.host := rfl
@[simp] theorem State.updLife_cnt (s : State) (f : Life → Life) : (s.updLife f).cnt = s.cnt := rfl
@[simp] theorem State.updLife_coat (s : State) (f : Life → Life) : (s.updLife f).coat = s.coat := rfl
@[simp] theorem State.updLife_hn (s : State) (f : Life → Life) : (s.updLife f).hn = s.hn := rfl
@[simp] theorem State.updLife_lk (s : State) (f : Life → Life) : (s.updLife f).lk = s.lk := rfl
@[simp] theorem State.updLife_bm (s : State) (f : Life → Life) : (s.updLife f).bm = s.bm := rfl
@[simp] theorem State.updLife_q (s : State) (f : Life → Life) : (s.updLife f).q = s.q := rfl
@[simp] theorem State.updLife_fb (s : State) (f : Life → Life) : (s.updLife f).fb = s.fb := rfl
@[simp] theorem State.updLife_tn (s : State) (f : Life → Life) : (s.updLife f).tn = s.tn := rfl
@[simp] theorem State.updLife_fr (s : State) (f : Life → Life) : (s.updLife f).fr = s.fr := rfl
@[simp] theorem State.updLife_tw (s : State) (f : Life → Life) : (s.updLife f).tw = s.tw := rfl
@[simp] theorem State.updLife_hb (s : State) (f : Life → Life) : (s.updLife f).hb = s.hb := rfl
@[simp] theorem State.updLife_pt (s : State) (f : Life → Life) : (s.updLife f).pt = s.pt := rfl
@[simp] theorem State.updLife_sv (s : State) (f : Life → Life) : (s.updLife f).sv = s.sv := rfl

/-! #### `State.setSv` -/

@[simp] theorem State.setSv_pending (s : State) (u v : Nat) : (s.setSv u v).pending = s.pending := rfl
@[simp] theorem State.setSv_free (s : State) (u v : Nat) : (s.setSv u v).free = s.free := rfl
@[simp] theorem State.setSv_out (s : State) (u v : Nat) : (s.setSv u v).out = s.out := rfl
@[simp] theorem State.setSv_clk (s : State) (u v : Nat) : (s.setSv u v).clk = s.clk := rfl
@[simp] theorem State.setSv_host (s : State) (u v : Nat) : (s.setSv u v).host = s.host := rfl
@[simp] theorem State.setSv_cnt (s : State) (u v : Nat) : (s.setSv u v).cnt = s.cnt := rfl
@[simp] theorem State.setSv_coat (s : State) (u v : Nat) : (s.setSv u v).coat = s.coat := rfl
@[simp] theorem State.setSv_hn (s : State) (u v : Nat) : (s.setSv u v).hn = s.hn := rfl
@[simp] theorem State.setSv_lk (s : State) (u v : Nat) : (s.setSv u v).lk = s.lk := rfl
@[simp] theorem State.setSv_bm (s : State) (u v : Nat) : (s.setSv u v).bm = s.bm := rfl
@[simp] theorem State.setSv_q (s : State) (u v : Nat) : (s.setSv u v).q = s.q := rfl
@[simp] theorem State.setSv_fb (s : State) (u v : Nat) : (s.setSv u v).fb = s.fb := rfl
@[simp] theorem State.setSv_tn (s : State) (u v : Nat) : (s.setSv u v).tn = s.tn := rfl
@[simp] theorem State.setSv_fr (s : State) (u v : Nat) : (s.setSv u v).fr = s.fr := rfl
@[simp] theorem State.setSv_tw (s : State) (u v : Nat) : (s.setSv u v).tw = s.tw := rfl
@[simp] theorem State.setSv_hb (s : State) (u v : Nat) : (s.setSv u v).hb = s.hb := rfl
@[simp] theorem State.setSv_pt (s : State) (u v : Nat) : (s.setSv u v).pt = s.pt := rfl
@[simp] theorem State.setSv_sv (s : State) (u v : Nat) : (s.setSv u v).sv = s.sv := rfl
@[simp] theorem State.setSv_lt (s : State) (u v : Nat) : (s.setSv u v).lt = s.lt := rfl

/-! #### `State.setMeter` -/

@[simp] theorem State.setMeter_pending (s : State) (m : Nat) (v : Meter) : (s.setMeter m v).pending = s.pending := rfl
@[simp] theorem State.setMeter_free (s : State) (m : Nat) (v : Meter) : (s.setMeter m v).free = s.free := rfl
@[simp] theorem State.setMeter_out (s : State) (m : Nat) (v : Meter) : (s.setMeter m v).out = s.out := rfl
@[simp] theorem State.setMeter_clk (s : State) (m : Nat) (v : Meter) : (s.setMeter m v).clk = s.clk := rfl
@[simp] theorem State.setMeter_csr (s : State) (m : Nat) (v : Meter) : (s.setMeter m v).csr = s.csr := rfl
@[simp] theorem State.setMeter_host (s : State) (m : Nat) (v : Meter) : (s.setMeter m v).host = s.host := rfl
@[simp] theorem State.setMeter_cnt (s : State) (m : Nat) (v : Meter) : (s.setMeter m v).cnt = s.cnt := rfl
@[simp] theorem State.setMeter_coat (s : State) (m : Nat) (v : Meter) : (s.setMeter m v).coat = s.coat := rfl
@[simp] theorem State.setMeter_hn (s : State) (m : Nat) (v : Meter) : (s.setMeter m v).hn = s.hn := rfl
@[simp] theorem State.setMeter_lk (s : State) (m : Nat) (v : Meter) : (s.setMeter m v).lk = s.lk := rfl
@[simp] theorem State.setMeter_bm (s : State) (m : Nat) (v : Meter) : (s.setMeter m v).bm = s.bm := rfl
@[simp] theorem State.setMeter_fb (s : State) (m : Nat) (v : Meter) : (s.setMeter m v).fb = s.fb := rfl
@[simp] theorem State.setMeter_tn (s : State) (m : Nat) (v : Meter) : (s.setMeter m v).tn = s.tn := rfl
@[simp] theorem State.setMeter_fr (s : State) (m : Nat) (v : Meter) : (s.setMeter m v).fr = s.fr := rfl
@[simp] theorem State.setMeter_tw (s : State) (m : Nat) (v : Meter) : (s.setMeter m v).tw = s.tw := rfl
@[simp] theorem State.setMeter_hb (s : State) (m : Nat) (v : Meter) : (s.setMeter m v).hb = s.hb := rfl
@[simp] theorem State.setMeter_pt (s : State) (m : Nat) (v : Meter) : (s.setMeter m v).pt = s.pt := rfl
@[simp] theorem State.setMeter_sv (s : State) (m : Nat) (v : Meter) : (s.setMeter m v).sv = s.sv := rfl
@[simp] theorem State.setMeter_lt (s : State) (m : Nat) (v : Meter) : (s.setMeter m v).lt = s.lt := rfl

/-! #### `State.setVoq` -/

@[simp] theorem State.setVoq_pending (s : State) (q : Nat) (l : List Queued) : (s.setVoq q l).pending = s.pending := rfl
@[simp] theorem State.setVoq_free (s : State) (q : Nat) (l : List Queued) : (s.setVoq q l).free = s.free := rfl
@[simp] theorem State.setVoq_out (s : State) (q : Nat) (l : List Queued) : (s.setVoq q l).out = s.out := rfl
@[simp] theorem State.setVoq_clk (s : State) (q : Nat) (l : List Queued) : (s.setVoq q l).clk = s.clk := rfl
@[simp] theorem State.setVoq_csr (s : State) (q : Nat) (l : List Queued) : (s.setVoq q l).csr = s.csr := rfl
@[simp] theorem State.setVoq_host (s : State) (q : Nat) (l : List Queued) : (s.setVoq q l).host = s.host := rfl
@[simp] theorem State.setVoq_cnt (s : State) (q : Nat) (l : List Queued) : (s.setVoq q l).cnt = s.cnt := rfl
@[simp] theorem State.setVoq_coat (s : State) (q : Nat) (l : List Queued) : (s.setVoq q l).coat = s.coat := rfl
@[simp] theorem State.setVoq_hn (s : State) (q : Nat) (l : List Queued) : (s.setVoq q l).hn = s.hn := rfl
@[simp] theorem State.setVoq_lk (s : State) (q : Nat) (l : List Queued) : (s.setVoq q l).lk = s.lk := rfl
@[simp] theorem State.setVoq_bm (s : State) (q : Nat) (l : List Queued) : (s.setVoq q l).bm = s.bm := rfl
@[simp] theorem State.setVoq_fb (s : State) (q : Nat) (l : List Queued) : (s.setVoq q l).fb = s.fb := rfl
@[simp] theorem State.setVoq_tn (s : State) (q : Nat) (l : List Queued) : (s.setVoq q l).tn = s.tn := rfl
@[simp] theorem State.setVoq_fr (s : State) (q : Nat) (l : List Queued) : (s.setVoq q l).fr = s.fr := rfl
@[simp] theorem State.setVoq_tw (s : State) (q : Nat) (l : List Queued) : (s.setVoq q l).tw = s.tw := rfl
@[simp] theorem State.setVoq_hb (s : State) (q : Nat) (l : List Queued) : (s.setVoq q l).hb = s.hb := rfl
@[simp] theorem State.setVoq_pt (s : State) (q : Nat) (l : List Queued) : (s.setVoq q l).pt = s.pt := rfl
@[simp] theorem State.setVoq_sv (s : State) (q : Nat) (l : List Queued) : (s.setVoq q l).sv = s.sv := rfl
@[simp] theorem State.setVoq_lt (s : State) (q : Nat) (l : List Queued) : (s.setVoq q l).lt = s.lt := rfl

/-! #### `State.setEq` -/

@[simp] theorem State.setEq_pending (s : State) (e : Nat) (l : List Queued) : (s.setEq e l).pending = s.pending := rfl
@[simp] theorem State.setEq_free (s : State) (e : Nat) (l : List Queued) : (s.setEq e l).free = s.free := rfl
@[simp] theorem State.setEq_out (s : State) (e : Nat) (l : List Queued) : (s.setEq e l).out = s.out := rfl
@[simp] theorem State.setEq_clk (s : State) (e : Nat) (l : List Queued) : (s.setEq e l).clk = s.clk := rfl
@[simp] theorem State.setEq_csr (s : State) (e : Nat) (l : List Queued) : (s.setEq e l).csr = s.csr := rfl
@[simp] theorem State.setEq_host (s : State) (e : Nat) (l : List Queued) : (s.setEq e l).host = s.host := rfl
@[simp] theorem State.setEq_cnt (s : State) (e : Nat) (l : List Queued) : (s.setEq e l).cnt = s.cnt := rfl
@[simp] theorem State.setEq_coat (s : State) (e : Nat) (l : List Queued) : (s.setEq e l).coat = s.coat := rfl
@[simp] theorem State.setEq_hn (s : State) (e : Nat) (l : List Queued) : (s.setEq e l).hn = s.hn := rfl
@[simp] theorem State.setEq_lk (s : State) (e : Nat) (l : List Queued) : (s.setEq e l).lk = s.lk := rfl
@[simp] theorem State.setEq_bm (s : State) (e : Nat) (l : List Queued) : (s.setEq e l).bm = s.bm := rfl
@[simp] theorem State.setEq_fb (s : State) (e : Nat) (l : List Queued) : (s.setEq e l).fb = s.fb := rfl
@[simp] theorem State.setEq_tn (s : State) (e : Nat) (l : List Queued) : (s.setEq e l).tn = s.tn := rfl
@[simp] theorem State.setEq_fr (s : State) (e : Nat) (l : List Queued) : (s.setEq e l).fr = s.fr := rfl
@[simp] theorem State.setEq_tw (s : State) (e : Nat) (l : List Queued) : (s.setEq e l).tw = s.tw := rfl
@[simp] theorem State.setEq_hb (s : State) (e : Nat) (l : List Queued) : (s.setEq e l).hb = s.hb := rfl
@[simp] theorem State.setEq_pt (s : State) (e : Nat) (l : List Queued) : (s.setEq e l).pt = s.pt := rfl
@[simp] theorem State.setEq_sv (s : State) (e : Nat) (l : List Queued) : (s.setEq e l).sv = s.sv := rfl
@[simp] theorem State.setEq_lt (s : State) (e : Nat) (l : List Queued) : (s.setEq e l).lt = s.lt := rfl

/-! #### `State.setQueue` -/

@[simp] theorem State.setQueue_pending (s : State) (q : QueueId) (l : List Queued) :
    (s.setQueue q l).pending = s.pending := by cases q <;> rfl
@[simp] theorem State.setQueue_free (s : State) (q : QueueId) (l : List Queued) :
    (s.setQueue q l).free = s.free := by cases q <;> rfl
@[simp] theorem State.setQueue_out (s : State) (q : QueueId) (l : List Queued) :
    (s.setQueue q l).out = s.out := by cases q <;> rfl
@[simp] theorem State.setQueue_clk (s : State) (q : QueueId) (l : List Queued) :
    (s.setQueue q l).clk = s.clk := by cases q <;> rfl
@[simp] theorem State.setQueue_csr (s : State) (q : QueueId) (l : List Queued) :
    (s.setQueue q l).csr = s.csr := by cases q <;> rfl
@[simp] theorem State.setQueue_host (s : State) (q : QueueId) (l : List Queued) :
    (s.setQueue q l).host = s.host := by cases q <;> rfl
@[simp] theorem State.setQueue_cnt (s : State) (q : QueueId) (l : List Queued) :
    (s.setQueue q l).cnt = s.cnt := by cases q <;> rfl
@[simp] theorem State.setQueue_coat (s : State) (q : QueueId) (l : List Queued) :
    (s.setQueue q l).coat = s.coat := by cases q <;> rfl
@[simp] theorem State.setQueue_hn (s : State) (q : QueueId) (l : List Queued) : (s.setQueue q l).hn = s.hn := by cases q <;> rfl
@[simp] theorem State.setQueue_lk (s : State) (q : QueueId) (l : List Queued) : (s.setQueue q l).lk = s.lk := by cases q <;> rfl
@[simp] theorem State.setQueue_bm (s : State) (q : QueueId) (l : List Queued) : (s.setQueue q l).bm = s.bm := by cases q <;> rfl
@[simp] theorem State.setQueue_fb (s : State) (q : QueueId) (l : List Queued) : (s.setQueue q l).fb = s.fb := by cases q <;> rfl
@[simp] theorem State.setQueue_tn (s : State) (q : QueueId) (l : List Queued) : (s.setQueue q l).tn = s.tn := by cases q <;> rfl
@[simp] theorem State.setQueue_fr (s : State) (q : QueueId) (l : List Queued) : (s.setQueue q l).fr = s.fr := by cases q <;> rfl
@[simp] theorem State.setQueue_tw (s : State) (q : QueueId) (l : List Queued) : (s.setQueue q l).tw = s.tw := by cases q <;> rfl
@[simp] theorem State.setQueue_hb (s : State) (q : QueueId) (l : List Queued) : (s.setQueue q l).hb = s.hb := by cases q <;> rfl
@[simp] theorem State.setQueue_pt (s : State) (q : QueueId) (l : List Queued) : (s.setQueue q l).pt = s.pt := by cases q <;> rfl
@[simp] theorem State.setQueue_sv (s : State) (q : QueueId) (l : List Queued) : (s.setQueue q l).sv = s.sv := by cases q <;> rfl
@[simp] theorem State.setQueue_lt (s : State) (q : QueueId) (l : List Queued) : (s.setQueue q l).lt = s.lt := by cases q <;> rfl

/-! #### `State.setShaper` -/

@[simp] theorem State.setShaper_pending (s : State) (h : Nat) (v : ShaperSt) : (s.setShaper h v).pending = s.pending := rfl
@[simp] theorem State.setShaper_free (s : State) (h : Nat) (v : ShaperSt) : (s.setShaper h v).free = s.free := rfl
@[simp] theorem State.setShaper_out (s : State) (h : Nat) (v : ShaperSt) : (s.setShaper h v).out = s.out := rfl
@[simp] theorem State.setShaper_clk (s : State) (h : Nat) (v : ShaperSt) : (s.setShaper h v).clk = s.clk := rfl
@[simp] theorem State.setShaper_csr (s : State) (h : Nat) (v : ShaperSt) : (s.setShaper h v).csr = s.csr := rfl
@[simp] theorem State.setShaper_host (s : State) (h : Nat) (v : ShaperSt) : (s.setShaper h v).host = s.host := rfl
@[simp] theorem State.setShaper_cnt (s : State) (h : Nat) (v : ShaperSt) : (s.setShaper h v).cnt = s.cnt := rfl
@[simp] theorem State.setShaper_coat (s : State) (h : Nat) (v : ShaperSt) : (s.setShaper h v).coat = s.coat := rfl
@[simp] theorem State.setShaper_hn (s : State) (h : Nat) (v : ShaperSt) : (s.setShaper h v).hn = s.hn := rfl
@[simp] theorem State.setShaper_lk (s : State) (h : Nat) (v : ShaperSt) : (s.setShaper h v).lk = s.lk := rfl
@[simp] theorem State.setShaper_bm (s : State) (h : Nat) (v : ShaperSt) : (s.setShaper h v).bm = s.bm := rfl
@[simp] theorem State.setShaper_fb (s : State) (h : Nat) (v : ShaperSt) : (s.setShaper h v).fb = s.fb := rfl
@[simp] theorem State.setShaper_tn (s : State) (h : Nat) (v : ShaperSt) : (s.setShaper h v).tn = s.tn := rfl
@[simp] theorem State.setShaper_fr (s : State) (h : Nat) (v : ShaperSt) : (s.setShaper h v).fr = s.fr := rfl
@[simp] theorem State.setShaper_tw (s : State) (h : Nat) (v : ShaperSt) : (s.setShaper h v).tw = s.tw := rfl
@[simp] theorem State.setShaper_hb (s : State) (h : Nat) (v : ShaperSt) : (s.setShaper h v).hb = s.hb := rfl
@[simp] theorem State.setShaper_pt (s : State) (h : Nat) (v : ShaperSt) : (s.setShaper h v).pt = s.pt := rfl
@[simp] theorem State.setShaper_sv (s : State) (h : Nat) (v : ShaperSt) : (s.setShaper h v).sv = s.sv := rfl
@[simp] theorem State.setShaper_lt (s : State) (h : Nat) (v : ShaperSt) : (s.setShaper h v).lt = s.lt := rfl

/-! #### `State.setElem` -/

@[simp] theorem State.setElem_pending (s : State) (c : Nat) (v : ElemSt) : (s.setElem c v).pending = s.pending := rfl
@[simp] theorem State.setElem_free (s : State) (c : Nat) (v : ElemSt) : (s.setElem c v).free = s.free := rfl
@[simp] theorem State.setElem_out (s : State) (c : Nat) (v : ElemSt) : (s.setElem c v).out = s.out := rfl
@[simp] theorem State.setElem_clk (s : State) (c : Nat) (v : ElemSt) : (s.setElem c v).clk = s.clk := rfl
@[simp] theorem State.setElem_csr (s : State) (c : Nat) (v : ElemSt) : (s.setElem c v).csr = s.csr := rfl
@[simp] theorem State.setElem_host (s : State) (c : Nat) (v : ElemSt) : (s.setElem c v).host = s.host := rfl
@[simp] theorem State.setElem_cnt (s : State) (c : Nat) (v : ElemSt) : (s.setElem c v).cnt = s.cnt := rfl
@[simp] theorem State.setElem_coat (s : State) (c : Nat) (v : ElemSt) : (s.setElem c v).coat = s.coat := rfl
@[simp] theorem State.setElem_hn (s : State) (c : Nat) (v : ElemSt) : (s.setElem c v).hn = s.hn := rfl
@[simp] theorem State.setElem_lk (s : State) (c : Nat) (v : ElemSt) : (s.setElem c v).lk = s.lk := rfl
@[simp] theorem State.setElem_bm (s : State) (c : Nat) (v : ElemSt) : (s.setElem c v).bm = s.bm := rfl
@[simp] theorem State.setElem_fb (s : State) (c : Nat) (v : ElemSt) : (s.setElem c v).fb = s.fb := rfl
@[simp] theorem State.setElem_tn (s : State) (c : Nat) (v : ElemSt) : (s.setElem c v).tn = s.tn := rfl
@[simp] theorem State.setElem_fr (s : State) (c : Nat) (v : ElemSt) : (s.setElem c v).fr = s.fr := rfl
@[simp] theorem State.setElem_tw (s : State) (c : Nat) (v : ElemSt) : (s.setElem c v).tw = s.tw := rfl
@[simp] theorem State.setElem_hb (s : State) (c : Nat) (v : ElemSt) : (s.setElem c v).hb = s.hb := rfl
@[simp] theorem State.setElem_pt (s : State) (c : Nat) (v : ElemSt) : (s.setElem c v).pt = s.pt := rfl
@[simp] theorem State.setElem_sv (s : State) (c : Nat) (v : ElemSt) : (s.setElem c v).sv = s.sv := rfl
@[simp] theorem State.setElem_lt (s : State) (c : Nat) (v : ElemSt) : (s.setElem c v).lt = s.lt := rfl

/-! #### `State.setPtr` -/

@[simp] theorem State.setPtr_pending (s : State) (parent prio : Nat) (c : Option Nat) :
    (s.setPtr parent prio c).pending = s.pending := rfl
@[simp] theorem State.setPtr_free (s : State) (parent prio : Nat) (c : Option Nat) : (s.setPtr parent prio c).free = s.free := rfl
@[simp] theorem State.setPtr_out (s : State) (parent prio : Nat) (c : Option Nat) : (s.setPtr parent prio c).out = s.out := rfl
@[simp] theorem State.setPtr_clk (s : State) (parent prio : Nat) (c : Option Nat) : (s.setPtr parent prio c).clk = s.clk := rfl
@[simp] theorem State.setPtr_csr (s : State) (parent prio : Nat) (c : Option Nat) : (s.setPtr parent prio c).csr = s.csr := rfl
@[simp] theorem State.setPtr_host (s : State) (parent prio : Nat) (c : Option Nat) : (s.setPtr parent prio c).host = s.host := rfl
@[simp] theorem State.setPtr_cnt (s : State) (parent prio : Nat) (c : Option Nat) : (s.setPtr parent prio c).cnt = s.cnt := rfl
@[simp] theorem State.setPtr_coat (s : State) (parent prio : Nat) (c : Option Nat) : (s.setPtr parent prio c).coat = s.coat := rfl
@[simp] theorem State.setPtr_hn (s : State) (parent prio : Nat) (c : Option Nat) : (s.setPtr parent prio c).hn = s.hn := rfl
@[simp] theorem State.setPtr_lk (s : State) (parent prio : Nat) (c : Option Nat) : (s.setPtr parent prio c).lk = s.lk := rfl
@[simp] theorem State.setPtr_bm (s : State) (parent prio : Nat) (c : Option Nat) : (s.setPtr parent prio c).bm = s.bm := rfl
@[simp] theorem State.setPtr_fb (s : State) (parent prio : Nat) (c : Option Nat) : (s.setPtr parent prio c).fb = s.fb := rfl
@[simp] theorem State.setPtr_tn (s : State) (parent prio : Nat) (c : Option Nat) : (s.setPtr parent prio c).tn = s.tn := rfl
@[simp] theorem State.setPtr_fr (s : State) (parent prio : Nat) (c : Option Nat) : (s.setPtr parent prio c).fr = s.fr := rfl
@[simp] theorem State.setPtr_tw (s : State) (parent prio : Nat) (c : Option Nat) : (s.setPtr parent prio c).tw = s.tw := rfl
@[simp] theorem State.setPtr_hb (s : State) (parent prio : Nat) (c : Option Nat) : (s.setPtr parent prio c).hb = s.hb := rfl
@[simp] theorem State.setPtr_pt (s : State) (parent prio : Nat) (c : Option Nat) : (s.setPtr parent prio c).pt = s.pt := rfl
@[simp] theorem State.setPtr_sv (s : State) (parent prio : Nat) (c : Option Nat) : (s.setPtr parent prio c).sv = s.sv := rfl
@[simp] theorem State.setPtr_lt (s : State) (parent prio : Nat) (c : Option Nat) : (s.setPtr parent prio c).lt = s.lt := rfl

/-! #### `State.updCoat` -/

@[simp] theorem State.updCoat_pending (s : State) (slot : Nat) (f : Coat → Coat) :
    (s.updCoat slot f).pending = s.pending := by unfold State.updCoat; split <;> rfl
@[simp] theorem State.updCoat_free (s : State) (slot : Nat) (f : Coat → Coat) :
    (s.updCoat slot f).free = s.free := by unfold State.updCoat; split <;> rfl
@[simp] theorem State.updCoat_out (s : State) (slot : Nat) (f : Coat → Coat) :
    (s.updCoat slot f).out = s.out := by unfold State.updCoat; split <;> rfl
@[simp] theorem State.updCoat_clk (s : State) (slot : Nat) (f : Coat → Coat) :
    (s.updCoat slot f).clk = s.clk := by unfold State.updCoat; split <;> rfl
@[simp] theorem State.updCoat_csr (s : State) (slot : Nat) (f : Coat → Coat) :
    (s.updCoat slot f).csr = s.csr := by unfold State.updCoat; split <;> rfl
@[simp] theorem State.updCoat_host (s : State) (slot : Nat) (f : Coat → Coat) :
    (s.updCoat slot f).host = s.host := by unfold State.updCoat; split <;> rfl
@[simp] theorem State.updCoat_cnt (s : State) (slot : Nat) (f : Coat → Coat) :
    (s.updCoat slot f).cnt = s.cnt := by unfold State.updCoat; split <;> rfl
@[simp] theorem State.updCoat_hn (s : State) (slot : Nat) (f : Coat → Coat) :
    (s.updCoat slot f).hn = s.hn := by unfold State.updCoat; split <;> rfl
@[simp] theorem State.updCoat_lk (s : State) (slot : Nat) (f : Coat → Coat) :
    (s.updCoat slot f).lk = s.lk := by unfold State.updCoat; split <;> rfl
@[simp] theorem State.updCoat_bm (s : State) (slot : Nat) (f : Coat → Coat) :
    (s.updCoat slot f).bm = s.bm := by unfold State.updCoat; split <;> rfl
@[simp] theorem State.updCoat_q (s : State) (slot : Nat) (f : Coat → Coat) :
    (s.updCoat slot f).q = s.q := by unfold State.updCoat; split <;> rfl
@[simp] theorem State.updCoat_fb (s : State) (slot : Nat) (f : Coat → Coat) :
    (s.updCoat slot f).fb = s.fb := by unfold State.updCoat; split <;> rfl
@[simp] theorem State.updCoat_tn (s : State) (slot : Nat) (f : Coat → Coat) :
    (s.updCoat slot f).tn = s.tn := by unfold State.updCoat; split <;> rfl
@[simp] theorem State.updCoat_fr (s : State) (slot : Nat) (f : Coat → Coat) :
    (s.updCoat slot f).fr = s.fr := by unfold State.updCoat; split <;> rfl
@[simp] theorem State.updCoat_tw (s : State) (slot : Nat) (f : Coat → Coat) :
    (s.updCoat slot f).tw = s.tw := by unfold State.updCoat; split <;> rfl
@[simp] theorem State.updCoat_hb (s : State) (slot : Nat) (f : Coat → Coat) :
    (s.updCoat slot f).hb = s.hb := by unfold State.updCoat; split <;> rfl
@[simp] theorem State.updCoat_pt (s : State) (slot : Nat) (f : Coat → Coat) :
    (s.updCoat slot f).pt = s.pt := by unfold State.updCoat; split <;> rfl
@[simp] theorem State.updCoat_sv (s : State) (slot : Nat) (f : Coat → Coat) :
    (s.updCoat slot f).sv = s.sv := by unfold State.updCoat; split <;> rfl
@[simp] theorem State.updCoat_lt (s : State) (slot : Nat) (f : Coat → Coat) :
    (s.updCoat slot f).lt = s.lt := by unfold State.updCoat; split <;> rfl

/-! #### `State.setCode` -/

@[simp] theorem State.setCode_pending (s : State) (t : Tid) (a : Nat) (w : BitVec 32) :
    (s.setCode t a w).pending = s.pending := by unfold State.setCode; simp
@[simp] theorem State.setCode_free (s : State) (t : Tid) (a : Nat) (w : BitVec 32) :
    (s.setCode t a w).free = s.free := by unfold State.setCode; simp
@[simp] theorem State.setCode_out (s : State) (t : Tid) (a : Nat) (w : BitVec 32) :
    (s.setCode t a w).out = s.out := by unfold State.setCode; simp
@[simp] theorem State.setCode_clk (s : State) (t : Tid) (a : Nat) (w : BitVec 32) :
    (s.setCode t a w).clk = s.clk := by unfold State.setCode; simp
@[simp] theorem State.setCode_csr (s : State) (t : Tid) (a : Nat) (w : BitVec 32) :
    (s.setCode t a w).csr = s.csr := by unfold State.setCode; simp
@[simp] theorem State.setCode_host (s : State) (t : Tid) (a : Nat) (w : BitVec 32) :
    (s.setCode t a w).host = s.host := by unfold State.setCode; simp
@[simp] theorem State.setCode_cnt (s : State) (t : Tid) (a : Nat) (w : BitVec 32) :
    (s.setCode t a w).cnt = s.cnt := by unfold State.setCode; simp
@[simp] theorem State.setCode_hn (s : State) (t : Tid) (a : Nat) (w : BitVec 32) :
    (s.setCode t a w).hn = s.hn := by unfold State.setCode; simp
@[simp] theorem State.setCode_lk (s : State) (t : Tid) (a : Nat) (w : BitVec 32) :
    (s.setCode t a w).lk = s.lk := by unfold State.setCode; simp
@[simp] theorem State.setCode_bm (s : State) (t : Tid) (a : Nat) (w : BitVec 32) :
    (s.setCode t a w).bm = s.bm := by unfold State.setCode; simp
@[simp] theorem State.setCode_q (s : State) (t : Tid) (a : Nat) (w : BitVec 32) :
    (s.setCode t a w).q = s.q := by unfold State.setCode; simp
@[simp] theorem State.setCode_fb (s : State) (t : Tid) (a : Nat) (w : BitVec 32) :
    (s.setCode t a w).fb = s.fb := by unfold State.setCode; simp
@[simp] theorem State.setCode_tn (s : State) (t : Tid) (a : Nat) (w : BitVec 32) :
    (s.setCode t a w).tn = s.tn := by unfold State.setCode; simp
@[simp] theorem State.setCode_fr (s : State) (t : Tid) (a : Nat) (w : BitVec 32) :
    (s.setCode t a w).fr = s.fr := by unfold State.setCode; simp
@[simp] theorem State.setCode_tw (s : State) (t : Tid) (a : Nat) (w : BitVec 32) :
    (s.setCode t a w).tw = s.tw := by unfold State.setCode; simp
@[simp] theorem State.setCode_hb (s : State) (t : Tid) (a : Nat) (w : BitVec 32) :
    (s.setCode t a w).hb = s.hb := by unfold State.setCode; simp
@[simp] theorem State.setCode_pt (s : State) (t : Tid) (a : Nat) (w : BitVec 32) :
    (s.setCode t a w).pt = s.pt := by unfold State.setCode; simp
@[simp] theorem State.setCode_sv (s : State) (t : Tid) (a : Nat) (w : BitVec 32) :
    (s.setCode t a w).sv = s.sv := by unfold State.setCode; simp
@[simp] theorem State.setCode_lt (s : State) (t : Tid) (a : Nat) (w : BitVec 32) :
    (s.setCode t a w).lt = s.lt := by unfold State.setCode; simp

/-! #### `State.setLatch` -/

@[simp] theorem State.setLatch_pending (s : State) (a : Agent) (v : Option (Nat × Word)) :
    (s.setLatch a v).pending = s.pending := by cases a <;> rfl
@[simp] theorem State.setLatch_free (s : State) (a : Agent) (v : Option (Nat × Word)) :
    (s.setLatch a v).free = s.free := by cases a <;> rfl
@[simp] theorem State.setLatch_out (s : State) (a : Agent) (v : Option (Nat × Word)) :
    (s.setLatch a v).out = s.out := by cases a <;> rfl
@[simp] theorem State.setLatch_clk (s : State) (a : Agent) (v : Option (Nat × Word)) :
    (s.setLatch a v).clk = s.clk := by cases a <;> rfl
@[simp] theorem State.setLatch_csr (s : State) (a : Agent) (v : Option (Nat × Word)) :
    (s.setLatch a v).csr = s.csr := by cases a <;> rfl
@[simp] theorem State.setLatch_cnt (s : State) (a : Agent) (v : Option (Nat × Word)) :
    (s.setLatch a v).cnt = s.cnt := by cases a <;> rfl
@[simp] theorem State.setLatch_coat (s : State) (a : Agent) (v : Option (Nat × Word)) :
    (s.setLatch a v).coat = s.coat := by cases a <;> rfl
@[simp] theorem State.setLatch_hn (s : State) (a : Agent) (v : Option (Nat × Word)) :
    (s.setLatch a v).hn = s.hn := by cases a <;> rfl
@[simp] theorem State.setLatch_lk (s : State) (a : Agent) (v : Option (Nat × Word)) :
    (s.setLatch a v).lk = s.lk := by cases a <;> rfl
@[simp] theorem State.setLatch_bm (s : State) (a : Agent) (v : Option (Nat × Word)) :
    (s.setLatch a v).bm = s.bm := by cases a <;> rfl
@[simp] theorem State.setLatch_q (s : State) (a : Agent) (v : Option (Nat × Word)) :
    (s.setLatch a v).q = s.q := by cases a <;> rfl
@[simp] theorem State.setLatch_fb (s : State) (a : Agent) (v : Option (Nat × Word)) :
    (s.setLatch a v).fb = s.fb := by cases a <;> rfl
@[simp] theorem State.setLatch_tn (s : State) (a : Agent) (v : Option (Nat × Word)) :
    (s.setLatch a v).tn = s.tn := by cases a <;> rfl
@[simp] theorem State.setLatch_fr (s : State) (a : Agent) (v : Option (Nat × Word)) :
    (s.setLatch a v).fr = s.fr := by cases a <;> rfl
@[simp] theorem State.setLatch_tw (s : State) (a : Agent) (v : Option (Nat × Word)) :
    (s.setLatch a v).tw = s.tw := by cases a <;> rfl
@[simp] theorem State.setLatch_hb (s : State) (a : Agent) (v : Option (Nat × Word)) :
    (s.setLatch a v).hb = s.hb := by cases a <;> rfl
@[simp] theorem State.setLatch_pt (s : State) (a : Agent) (v : Option (Nat × Word)) :
    (s.setLatch a v).pt = s.pt := by cases a <;> rfl
@[simp] theorem State.setLatch_sv (s : State) (a : Agent) (v : Option (Nat × Word)) :
    (s.setLatch a v).sv = s.sv := by cases a <;> rfl
@[simp] theorem State.setLatch_lt (s : State) (a : Agent) (v : Option (Nat × Word)) :
    (s.setLatch a v).lt = s.lt := by cases a <;> rfl

/-! #### `State.setHeld` -/

@[simp] theorem State.setHeld_pending (s : State) (a : Agent) (v : Option (Nat × Word)) :
    (s.setHeld a v).pending = s.pending := by cases a <;> rfl
@[simp] theorem State.setHeld_free (s : State) (a : Agent) (v : Option (Nat × Word)) :
    (s.setHeld a v).free = s.free := by cases a <;> rfl
@[simp] theorem State.setHeld_out (s : State) (a : Agent) (v : Option (Nat × Word)) :
    (s.setHeld a v).out = s.out := by cases a <;> rfl
@[simp] theorem State.setHeld_clk (s : State) (a : Agent) (v : Option (Nat × Word)) :
    (s.setHeld a v).clk = s.clk := by cases a <;> rfl
@[simp] theorem State.setHeld_csr (s : State) (a : Agent) (v : Option (Nat × Word)) :
    (s.setHeld a v).csr = s.csr := by cases a <;> rfl
@[simp] theorem State.setHeld_cnt (s : State) (a : Agent) (v : Option (Nat × Word)) :
    (s.setHeld a v).cnt = s.cnt := by cases a <;> rfl
@[simp] theorem State.setHeld_coat (s : State) (a : Agent) (v : Option (Nat × Word)) :
    (s.setHeld a v).coat = s.coat := by cases a <;> rfl
@[simp] theorem State.setHeld_hn (s : State) (a : Agent) (v : Option (Nat × Word)) :
    (s.setHeld a v).hn = s.hn := by cases a <;> rfl
@[simp] theorem State.setHeld_lk (s : State) (a : Agent) (v : Option (Nat × Word)) :
    (s.setHeld a v).lk = s.lk := by cases a <;> rfl
@[simp] theorem State.setHeld_bm (s : State) (a : Agent) (v : Option (Nat × Word)) :
    (s.setHeld a v).bm = s.bm := by cases a <;> rfl
@[simp] theorem State.setHeld_q (s : State) (a : Agent) (v : Option (Nat × Word)) : (s.setHeld a v).q = s.q := by cases a <;> rfl
@[simp] theorem State.setHeld_fb (s : State) (a : Agent) (v : Option (Nat × Word)) :
    (s.setHeld a v).fb = s.fb := by cases a <;> rfl
@[simp] theorem State.setHeld_tn (s : State) (a : Agent) (v : Option (Nat × Word)) :
    (s.setHeld a v).tn = s.tn := by cases a <;> rfl
@[simp] theorem State.setHeld_fr (s : State) (a : Agent) (v : Option (Nat × Word)) :
    (s.setHeld a v).fr = s.fr := by cases a <;> rfl
@[simp] theorem State.setHeld_tw (s : State) (a : Agent) (v : Option (Nat × Word)) :
    (s.setHeld a v).tw = s.tw := by cases a <;> rfl
@[simp] theorem State.setHeld_hb (s : State) (a : Agent) (v : Option (Nat × Word)) :
    (s.setHeld a v).hb = s.hb := by cases a <;> rfl
@[simp] theorem State.setHeld_pt (s : State) (a : Agent) (v : Option (Nat × Word)) :
    (s.setHeld a v).pt = s.pt := by cases a <;> rfl
@[simp] theorem State.setHeld_sv (s : State) (a : Agent) (v : Option (Nat × Word)) :
    (s.setHeld a v).sv = s.sv := by cases a <;> rfl
@[simp] theorem State.setHeld_lt (s : State) (a : Agent) (v : Option (Nat × Word)) :
    (s.setHeld a v).lt = s.lt := by cases a <;> rfl

/-! #### `State.setRing` -/

@[simp] theorem State.setRing_pending (s : State) (fn k : Nat) (r : RingSt) : (s.setRing fn k r).pending = s.pending := rfl
@[simp] theorem State.setRing_free (s : State) (fn k : Nat) (r : RingSt) : (s.setRing fn k r).free = s.free := rfl
@[simp] theorem State.setRing_out (s : State) (fn k : Nat) (r : RingSt) : (s.setRing fn k r).out = s.out := rfl
@[simp] theorem State.setRing_clk (s : State) (fn k : Nat) (r : RingSt) : (s.setRing fn k r).clk = s.clk := rfl
@[simp] theorem State.setRing_csr (s : State) (fn k : Nat) (r : RingSt) : (s.setRing fn k r).csr = s.csr := rfl
@[simp] theorem State.setRing_cnt (s : State) (fn k : Nat) (r : RingSt) : (s.setRing fn k r).cnt = s.cnt := rfl
@[simp] theorem State.setRing_coat (s : State) (fn k : Nat) (r : RingSt) : (s.setRing fn k r).coat = s.coat := rfl
@[simp] theorem State.setRing_hn (s : State) (fn k : Nat) (r : RingSt) : (s.setRing fn k r).hn = s.hn := rfl
@[simp] theorem State.setRing_lk (s : State) (fn k : Nat) (r : RingSt) : (s.setRing fn k r).lk = s.lk := rfl
@[simp] theorem State.setRing_bm (s : State) (fn k : Nat) (r : RingSt) : (s.setRing fn k r).bm = s.bm := rfl
@[simp] theorem State.setRing_q (s : State) (fn k : Nat) (r : RingSt) : (s.setRing fn k r).q = s.q := rfl
@[simp] theorem State.setRing_fb (s : State) (fn k : Nat) (r : RingSt) : (s.setRing fn k r).fb = s.fb := rfl
@[simp] theorem State.setRing_tn (s : State) (fn k : Nat) (r : RingSt) : (s.setRing fn k r).tn = s.tn := rfl
@[simp] theorem State.setRing_fr (s : State) (fn k : Nat) (r : RingSt) : (s.setRing fn k r).fr = s.fr := rfl
@[simp] theorem State.setRing_tw (s : State) (fn k : Nat) (r : RingSt) : (s.setRing fn k r).tw = s.tw := rfl
@[simp] theorem State.setRing_hb (s : State) (fn k : Nat) (r : RingSt) : (s.setRing fn k r).hb = s.hb := rfl
@[simp] theorem State.setRing_pt (s : State) (fn k : Nat) (r : RingSt) : (s.setRing fn k r).pt = s.pt := rfl
@[simp] theorem State.setRing_sv (s : State) (fn k : Nat) (r : RingSt) : (s.setRing fn k r).sv = s.sv := rfl
@[simp] theorem State.setRing_lt (s : State) (fn k : Nat) (r : RingSt) : (s.setRing fn k r).lt = s.lt := rfl

/-! #### `State.setSa` -/

@[simp] theorem State.setSa_pending (s : State) (i : Nat) (v : BitVec 512) : (s.setSa i v).pending = s.pending := rfl
@[simp] theorem State.setSa_free (s : State) (i : Nat) (v : BitVec 512) : (s.setSa i v).free = s.free := rfl
@[simp] theorem State.setSa_out (s : State) (i : Nat) (v : BitVec 512) : (s.setSa i v).out = s.out := rfl
@[simp] theorem State.setSa_clk (s : State) (i : Nat) (v : BitVec 512) : (s.setSa i v).clk = s.clk := rfl
@[simp] theorem State.setSa_csr (s : State) (i : Nat) (v : BitVec 512) : (s.setSa i v).csr = s.csr := rfl
@[simp] theorem State.setSa_host (s : State) (i : Nat) (v : BitVec 512) : (s.setSa i v).host = s.host := rfl
@[simp] theorem State.setSa_cnt (s : State) (i : Nat) (v : BitVec 512) : (s.setSa i v).cnt = s.cnt := rfl
@[simp] theorem State.setSa_coat (s : State) (i : Nat) (v : BitVec 512) : (s.setSa i v).coat = s.coat := rfl
@[simp] theorem State.setSa_hn (s : State) (i : Nat) (v : BitVec 512) : (s.setSa i v).hn = s.hn := rfl
@[simp] theorem State.setSa_lk (s : State) (i : Nat) (v : BitVec 512) : (s.setSa i v).lk = s.lk := rfl
@[simp] theorem State.setSa_bm (s : State) (i : Nat) (v : BitVec 512) : (s.setSa i v).bm = s.bm := rfl
@[simp] theorem State.setSa_q (s : State) (i : Nat) (v : BitVec 512) : (s.setSa i v).q = s.q := rfl
@[simp] theorem State.setSa_fb (s : State) (i : Nat) (v : BitVec 512) : (s.setSa i v).fb = s.fb := rfl
@[simp] theorem State.setSa_tn (s : State) (i : Nat) (v : BitVec 512) : (s.setSa i v).tn = s.tn := rfl
@[simp] theorem State.setSa_fr (s : State) (i : Nat) (v : BitVec 512) : (s.setSa i v).fr = s.fr := rfl
@[simp] theorem State.setSa_tw (s : State) (i : Nat) (v : BitVec 512) : (s.setSa i v).tw = s.tw := rfl
@[simp] theorem State.setSa_hb (s : State) (i : Nat) (v : BitVec 512) : (s.setSa i v).hb = s.hb := rfl
@[simp] theorem State.setSa_sv (s : State) (i : Nat) (v : BitVec 512) : (s.setSa i v).sv = s.sv := rfl
@[simp] theorem State.setSa_lt (s : State) (i : Nat) (v : BitVec 512) : (s.setSa i v).lt = s.lt := rfl

/-! #### `State.setDescWord` -/

@[simp] theorem State.setDescWord_pending (s : State) (t w v : Nat) : (s.setDescWord t w v).pending = s.pending := rfl
@[simp] theorem State.setDescWord_free (s : State) (t w v : Nat) : (s.setDescWord t w v).free = s.free := rfl
@[simp] theorem State.setDescWord_out (s : State) (t w v : Nat) : (s.setDescWord t w v).out = s.out := rfl
@[simp] theorem State.setDescWord_clk (s : State) (t w v : Nat) : (s.setDescWord t w v).clk = s.clk := rfl
@[simp] theorem State.setDescWord_csr (s : State) (t w v : Nat) : (s.setDescWord t w v).csr = s.csr := rfl
@[simp] theorem State.setDescWord_host (s : State) (t w v : Nat) : (s.setDescWord t w v).host = s.host := rfl
@[simp] theorem State.setDescWord_cnt (s : State) (t w v : Nat) : (s.setDescWord t w v).cnt = s.cnt := rfl
@[simp] theorem State.setDescWord_coat (s : State) (t w v : Nat) : (s.setDescWord t w v).coat = s.coat := rfl
@[simp] theorem State.setDescWord_hn (s : State) (t w v : Nat) : (s.setDescWord t w v).hn = s.hn := rfl
@[simp] theorem State.setDescWord_bm (s : State) (t w v : Nat) : (s.setDescWord t w v).bm = s.bm := rfl
@[simp] theorem State.setDescWord_q (s : State) (t w v : Nat) : (s.setDescWord t w v).q = s.q := rfl
@[simp] theorem State.setDescWord_fb (s : State) (t w v : Nat) : (s.setDescWord t w v).fb = s.fb := rfl
@[simp] theorem State.setDescWord_tn (s : State) (t w v : Nat) : (s.setDescWord t w v).tn = s.tn := rfl
@[simp] theorem State.setDescWord_fr (s : State) (t w v : Nat) : (s.setDescWord t w v).fr = s.fr := rfl
@[simp] theorem State.setDescWord_tw (s : State) (t w v : Nat) : (s.setDescWord t w v).tw = s.tw := rfl
@[simp] theorem State.setDescWord_hb (s : State) (t w v : Nat) : (s.setDescWord t w v).hb = s.hb := rfl
@[simp] theorem State.setDescWord_pt (s : State) (t w v : Nat) : (s.setDescWord t w v).pt = s.pt := rfl
@[simp] theorem State.setDescWord_sv (s : State) (t w v : Nat) : (s.setDescWord t w v).sv = s.sv := rfl
@[simp] theorem State.setDescWord_lt (s : State) (t w v : Nat) : (s.setDescWord t w v).lt = s.lt := rfl

/-! #### `State.setEntry` -/

@[simp] theorem State.setEntry_pending (s : State) (home n : Nat) (e : Option Entry) :
    (s.setEntry home n e).pending = s.pending := rfl
@[simp] theorem State.setEntry_free (s : State) (home n : Nat) (e : Option Entry) : (s.setEntry home n e).free = s.free := rfl
@[simp] theorem State.setEntry_out (s : State) (home n : Nat) (e : Option Entry) : (s.setEntry home n e).out = s.out := rfl
@[simp] theorem State.setEntry_clk (s : State) (home n : Nat) (e : Option Entry) : (s.setEntry home n e).clk = s.clk := rfl
@[simp] theorem State.setEntry_csr (s : State) (home n : Nat) (e : Option Entry) : (s.setEntry home n e).csr = s.csr := rfl
@[simp] theorem State.setEntry_host (s : State) (home n : Nat) (e : Option Entry) : (s.setEntry home n e).host = s.host := rfl
@[simp] theorem State.setEntry_cnt (s : State) (home n : Nat) (e : Option Entry) : (s.setEntry home n e).cnt = s.cnt := rfl
@[simp] theorem State.setEntry_coat (s : State) (home n : Nat) (e : Option Entry) : (s.setEntry home n e).coat = s.coat := rfl
@[simp] theorem State.setEntry_hn (s : State) (home n : Nat) (e : Option Entry) : (s.setEntry home n e).hn = s.hn := rfl
@[simp] theorem State.setEntry_bm (s : State) (home n : Nat) (e : Option Entry) : (s.setEntry home n e).bm = s.bm := rfl
@[simp] theorem State.setEntry_q (s : State) (home n : Nat) (e : Option Entry) : (s.setEntry home n e).q = s.q := rfl
@[simp] theorem State.setEntry_fb (s : State) (home n : Nat) (e : Option Entry) : (s.setEntry home n e).fb = s.fb := rfl
@[simp] theorem State.setEntry_tn (s : State) (home n : Nat) (e : Option Entry) : (s.setEntry home n e).tn = s.tn := rfl
@[simp] theorem State.setEntry_fr (s : State) (home n : Nat) (e : Option Entry) : (s.setEntry home n e).fr = s.fr := rfl
@[simp] theorem State.setEntry_tw (s : State) (home n : Nat) (e : Option Entry) : (s.setEntry home n e).tw = s.tw := rfl
@[simp] theorem State.setEntry_hb (s : State) (home n : Nat) (e : Option Entry) : (s.setEntry home n e).hb = s.hb := rfl
@[simp] theorem State.setEntry_pt (s : State) (home n : Nat) (e : Option Entry) : (s.setEntry home n e).pt = s.pt := rfl
@[simp] theorem State.setEntry_sv (s : State) (home n : Nat) (e : Option Entry) : (s.setEntry home n e).sv = s.sv := rfl
@[simp] theorem State.setEntry_lt (s : State) (home n : Nat) (e : Option Entry) : (s.setEntry home n e).lt = s.lt := rfl

/-! #### `State.setRoute` -/

@[simp] theorem State.setRoute_pending (s : State) (u : Nat) (r : Option Route) : (s.setRoute u r).pending = s.pending := rfl
@[simp] theorem State.setRoute_free (s : State) (u : Nat) (r : Option Route) : (s.setRoute u r).free = s.free := rfl
@[simp] theorem State.setRoute_out (s : State) (u : Nat) (r : Option Route) : (s.setRoute u r).out = s.out := rfl
@[simp] theorem State.setRoute_clk (s : State) (u : Nat) (r : Option Route) : (s.setRoute u r).clk = s.clk := rfl
@[simp] theorem State.setRoute_csr (s : State) (u : Nat) (r : Option Route) : (s.setRoute u r).csr = s.csr := rfl
@[simp] theorem State.setRoute_host (s : State) (u : Nat) (r : Option Route) : (s.setRoute u r).host = s.host := rfl
@[simp] theorem State.setRoute_cnt (s : State) (u : Nat) (r : Option Route) : (s.setRoute u r).cnt = s.cnt := rfl
@[simp] theorem State.setRoute_coat (s : State) (u : Nat) (r : Option Route) : (s.setRoute u r).coat = s.coat := rfl
@[simp] theorem State.setRoute_hn (s : State) (u : Nat) (r : Option Route) : (s.setRoute u r).hn = s.hn := rfl
@[simp] theorem State.setRoute_bm (s : State) (u : Nat) (r : Option Route) : (s.setRoute u r).bm = s.bm := rfl
@[simp] theorem State.setRoute_q (s : State) (u : Nat) (r : Option Route) : (s.setRoute u r).q = s.q := rfl
@[simp] theorem State.setRoute_fb (s : State) (u : Nat) (r : Option Route) : (s.setRoute u r).fb = s.fb := rfl
@[simp] theorem State.setRoute_tn (s : State) (u : Nat) (r : Option Route) : (s.setRoute u r).tn = s.tn := rfl
@[simp] theorem State.setRoute_fr (s : State) (u : Nat) (r : Option Route) : (s.setRoute u r).fr = s.fr := rfl
@[simp] theorem State.setRoute_tw (s : State) (u : Nat) (r : Option Route) : (s.setRoute u r).tw = s.tw := rfl
@[simp] theorem State.setRoute_hb (s : State) (u : Nat) (r : Option Route) : (s.setRoute u r).hb = s.hb := rfl
@[simp] theorem State.setRoute_pt (s : State) (u : Nat) (r : Option Route) : (s.setRoute u r).pt = s.pt := rfl
@[simp] theorem State.setRoute_sv (s : State) (u : Nat) (r : Option Route) : (s.setRoute u r).sv = s.sv := rfl
@[simp] theorem State.setRoute_lt (s : State) (u : Nat) (r : Option Route) : (s.setRoute u r).lt = s.lt := rfl

/-! #### `State.setTw` -/

@[simp] theorem State.setTw_pending (s : State) (c : Nat) (v : TwChan) : (s.setTw c v).pending = s.pending := rfl
@[simp] theorem State.setTw_free (s : State) (c : Nat) (v : TwChan) : (s.setTw c v).free = s.free := rfl
@[simp] theorem State.setTw_out (s : State) (c : Nat) (v : TwChan) : (s.setTw c v).out = s.out := rfl
@[simp] theorem State.setTw_clk (s : State) (c : Nat) (v : TwChan) : (s.setTw c v).clk = s.clk := rfl
@[simp] theorem State.setTw_csr (s : State) (c : Nat) (v : TwChan) : (s.setTw c v).csr = s.csr := rfl
@[simp] theorem State.setTw_host (s : State) (c : Nat) (v : TwChan) : (s.setTw c v).host = s.host := rfl
@[simp] theorem State.setTw_cnt (s : State) (c : Nat) (v : TwChan) : (s.setTw c v).cnt = s.cnt := rfl
@[simp] theorem State.setTw_coat (s : State) (c : Nat) (v : TwChan) : (s.setTw c v).coat = s.coat := rfl
@[simp] theorem State.setTw_hn (s : State) (c : Nat) (v : TwChan) : (s.setTw c v).hn = s.hn := rfl
@[simp] theorem State.setTw_lk (s : State) (c : Nat) (v : TwChan) : (s.setTw c v).lk = s.lk := rfl
@[simp] theorem State.setTw_bm (s : State) (c : Nat) (v : TwChan) : (s.setTw c v).bm = s.bm := rfl
@[simp] theorem State.setTw_q (s : State) (c : Nat) (v : TwChan) : (s.setTw c v).q = s.q := rfl
@[simp] theorem State.setTw_fb (s : State) (c : Nat) (v : TwChan) : (s.setTw c v).fb = s.fb := rfl
@[simp] theorem State.setTw_tn (s : State) (c : Nat) (v : TwChan) : (s.setTw c v).tn = s.tn := rfl
@[simp] theorem State.setTw_fr (s : State) (c : Nat) (v : TwChan) : (s.setTw c v).fr = s.fr := rfl
@[simp] theorem State.setTw_hb (s : State) (c : Nat) (v : TwChan) : (s.setTw c v).hb = s.hb := rfl
@[simp] theorem State.setTw_pt (s : State) (c : Nat) (v : TwChan) : (s.setTw c v).pt = s.pt := rfl
@[simp] theorem State.setTw_sv (s : State) (c : Nat) (v : TwChan) : (s.setTw c v).sv = s.sv := rfl
@[simp] theorem State.setTw_lt (s : State) (c : Nat) (v : TwChan) : (s.setTw c v).lt = s.lt := rfl

/-! #### `State.setTwState` -/

@[simp] theorem State.setTwState_pending (s : State) (c v : Nat) : (s.setTwState c v).pending = s.pending := rfl
@[simp] theorem State.setTwState_free (s : State) (c v : Nat) : (s.setTwState c v).free = s.free := rfl
@[simp] theorem State.setTwState_out (s : State) (c v : Nat) : (s.setTwState c v).out = s.out := rfl
@[simp] theorem State.setTwState_clk (s : State) (c v : Nat) : (s.setTwState c v).clk = s.clk := rfl
@[simp] theorem State.setTwState_host (s : State) (c v : Nat) : (s.setTwState c v).host = s.host := rfl
@[simp] theorem State.setTwState_cnt (s : State) (c v : Nat) : (s.setTwState c v).cnt = s.cnt := rfl
@[simp] theorem State.setTwState_coat (s : State) (c v : Nat) : (s.setTwState c v).coat = s.coat := rfl
@[simp] theorem State.setTwState_hn (s : State) (c v : Nat) : (s.setTwState c v).hn = s.hn := rfl
@[simp] theorem State.setTwState_lk (s : State) (c v : Nat) : (s.setTwState c v).lk = s.lk := rfl
@[simp] theorem State.setTwState_bm (s : State) (c v : Nat) : (s.setTwState c v).bm = s.bm := rfl
@[simp] theorem State.setTwState_q (s : State) (c v : Nat) : (s.setTwState c v).q = s.q := rfl
@[simp] theorem State.setTwState_fb (s : State) (c v : Nat) : (s.setTwState c v).fb = s.fb := rfl
@[simp] theorem State.setTwState_tn (s : State) (c v : Nat) : (s.setTwState c v).tn = s.tn := rfl
@[simp] theorem State.setTwState_fr (s : State) (c v : Nat) : (s.setTwState c v).fr = s.fr := rfl
@[simp] theorem State.setTwState_tw (s : State) (c v : Nat) : (s.setTwState c v).tw = s.tw := rfl
@[simp] theorem State.setTwState_hb (s : State) (c v : Nat) : (s.setTwState c v).hb = s.hb := rfl
@[simp] theorem State.setTwState_pt (s : State) (c v : Nat) : (s.setTwState c v).pt = s.pt := rfl
@[simp] theorem State.setTwState_sv (s : State) (c v : Nat) : (s.setTwState c v).sv = s.sv := rfl
@[simp] theorem State.setTwState_lt (s : State) (c v : Nat) : (s.setTwState c v).lt = s.lt := rfl

end Sys2Proof.Machine
end

