-- ==== Sys2Proof/Laws/Registers.lean ====
section
/-! SUPPORT. Registers: what a field reads as after a field or a word has been stored. -/

namespace Sys2Proof.Machine

/-! ### Bit fields of a number -/

theorem putBits_eq (v lo n f : Nat) :
    putBits v lo n f = 2 ^ lo * (2 ^ n * (v / 2 ^ (lo + n)) + f % 2 ^ n) + v % 2 ^ lo := by
  simp only [putBits, bitsOf, Nat.shiftLeft_eq, Nat.shiftRight_eq_div_pow]
  have h1 := Nat.div_add_mod v (2 ^ lo)
  have h2 := Nat.div_add_mod (v / 2 ^ lo) (2 ^ n)
  rw [Nat.div_div_eq_div_mul, ← Nat.pow_add] at h2
  generalize v / 2 ^ (lo + n) = q at *
  generalize v / 2 ^ lo % 2 ^ n = r at *
  generalize v % 2 ^ lo = m at *
  generalize f % 2 ^ n = g at *
  have h3 : v = 2 ^ lo * (2 ^ n * q) + r * 2 ^ lo + m := by rw [← h1, ← h2]; ring
  rw [Nat.mul_add, Nat.mul_comm (2 ^ lo) g]
  omega

/-- A stored field's bits are the value's; the other bits stay. -/
theorem testBit_putBits (v lo n f i : Nat) :
    (putBits v lo n f).testBit i = if lo ≤ i ∧ i < lo + n then f.testBit (i - lo) else v.testBit i := by
  rw [putBits_eq, Nat.testBit_two_pow_mul_add _ (Nat.mod_lt _ (Nat.two_pow_pos _)),
    Nat.testBit_two_pow_mul_add _ (Nat.mod_lt _ (Nat.two_pow_pos _))]
  by_cases h1 : i < lo
  · simp [h1, Nat.testBit_mod_two_pow, Nat.not_le.mpr h1]
  · by_cases h2 : i < lo + n
    · have h3 : i - lo < n := by omega
      have h4 : lo ≤ i := by omega
      simp [h1, h2, h3, h4, Nat.testBit_mod_two_pow]
    · have h3 : ¬i - lo < n := by omega
      simp only [h1, h2, h3, if_false, and_false, Nat.testBit_div_two_pow]
      congr 1
      omega

theorem testBit_bitsOf (v lo n i : Nat) : (bitsOf v lo n).testBit i = (decide (i < n) && v.testBit (lo + i)) := by
  simp only [bitsOf, Nat.testBit_mod_two_pow, Nat.testBit_shiftRight]

theorem bitsOf_lt (v lo n : Nat) : bitsOf v lo n < 2 ^ n := Nat.mod_lt _ (Nat.two_pow_pos _)

@[simp] theorem bitsOf_putBits_same (v lo n f : Nat) : bitsOf (putBits v lo n f) lo n = f % 2 ^ n := by
  refine Nat.eq_of_testBit_eq (fun i => ?_)
  rw [testBit_bitsOf, testBit_putBits, Nat.testBit_mod_two_pow]
  by_cases h : i < n
  · have h1 : lo ≤ lo + i ∧ lo + i < lo + n := by omega
    have h2 : lo + i - lo = i := by omega
    simp only [h, h1, h2, if_true, and_self, decide_true, Bool.true_and]
  · simp only [h, decide_false, Bool.false_and]

theorem bitsOf_putBits_other (v lo n f lo' n' : Nat) (h : lo' + n' ≤ lo ∨ lo + n ≤ lo') :
    bitsOf (putBits v lo n f) lo' n' = bitsOf v lo' n' := by
  refine Nat.eq_of_testBit_eq (fun i => ?_)
  rw [testBit_bitsOf, testBit_bitsOf, testBit_putBits]
  by_cases hi : i < n'
  · rw [if_neg (by omega)]
  · simp only [hi, decide_false, Bool.false_and]

theorem putBits_lt (v lo n f w : Nat) (hv : v < 2 ^ w) (h : lo + n ≤ w) : putBits v lo n f < 2 ^ w := by
  refine Nat.lt_pow_two_of_testBit _ (fun i hi => ?_)
  rw [testBit_putBits, if_neg (by omega)]
  exact Nat.testBit_lt_two_pow (lt_of_lt_of_le hv (Nat.pow_le_pow_right (by omega) hi))

/-! ### Words -/

theorem Reg.code_inj {r q : Reg} : r.code = q.code ↔ r = q := by
  constructor
  · intro h
    have e := congrArg Reg.ofNat h
    rwa [Reg.code, Reg.code, Reg.ofNat_ctorIdx, Reg.ofNat_ctorIdx] at e
  · rintro rfl; rfl

theorem regKey_inj {r q : Reg} {i j w x : Nat} : regKey r i w = regKey q j x ↔ r = q ∧ i = j ∧ w = x := by
  unfold regKey
  rw [tripleKey_inj, Reg.code_inj, and_assoc]

@[simp] theorem State.word_setWord_same (s : State) (r : Reg) (i w : Nat) (v : Word) :
    (s.setWord r i w v).word r i w = v := Sparse.get_set_same ..

theorem State.word_setWord_other (s : State) (r q : Reg) (i j w x : Nat) (v : Word) (h : ¬(q = r ∧ j = i ∧ x = w)) :
    (s.setWord r i w v).word q j x = s.word q j x :=
  Sparse.get_put_other _ _ _ _ _ (fun e => h (regKey_inj.mp e))

/-! ### Fields -/

/-- A field within one word. -/
def FId.inWord (f : FId) : Prop := f.lo % 64 + f.len ≤ 64

/-- A field that has been stored reads as the stored value's low bits. -/
theorem State.rd_wr_same (s : State) (f : FId) (i v : Nat) (h : f.inWord) : (s.wr f i v).rd f i = v % 2 ^ f.len := by
  unfold State.rd State.wr
  rw [State.word_setWord_same, BitVec.toNat_ofNat, Nat.mod_eq_of_lt (putBits_lt _ _ _ _ _ (BitVec.isLt _) h),
    bitsOf_putBits_same]

/-- A field of another register, another instance or another word, and one of the same word with other bits, stays. -/
theorem State.rd_wr_other (s : State) (f g : FId) (i j v : Nat) (hf : f.inWord)
    (h : g.reg ≠ f.reg ∨ j ≠ i ∨ g.lo / 64 ≠ f.lo / 64 ∨ g.lo + g.len ≤ f.lo ∨ f.lo + f.len ≤ g.lo) :
    (s.wr f i v).rd g j = s.rd g j := by
  unfold State.rd State.wr
  by_cases e : g.reg = f.reg ∧ j = i ∧ g.lo / 64 = f.lo / 64
  · obtain ⟨e1, rfl, e3⟩ := e
    rw [e1, e3, State.word_setWord_same, BitVec.toNat_ofNat,
      Nat.mod_eq_of_lt (putBits_lt _ _ _ _ _ (BitVec.isLt _) hf)]
    exact bitsOf_putBits_other _ _ _ _ _ _ (by rcases h with h | h | h | h <;> first | contradiction | omega)
  · rw [State.word_setWord_other _ _ _ _ _ _ _ _ e]

theorem State.rd_lt (s : State) (f : FId) (i : Nat) : s.rd f i < 2 ^ f.len := bitsOf_lt _ _ _

/-- A store in a register leaves the canonical form of the register store. -/
theorem State.wr_csr_rising (s : State) (f : FId) (i v : Nat) (h : Sparse.rising s.csr = true) :
    Sparse.rising (s.wr f i v).csr = true := Sparse.put_rising _ _ _ h

end Sys2Proof.Machine
end

