-- ==== Sys2Proof/Laws/Memory.lean ====
section
/-! SUPPORT. The byte stores, host memory, counters, clocks and interrupts: what each shared operation does and what it
leaves. -/

namespace Sys2Proof.Machine

/-! ### Byte strings -/

@[simp] theorem leBytes_length (n v : Nat) : (leBytes n v).length = n := by
  induction n generalizing v with
  | zero => rfl
  | succ n ih => simp [leBytes, ih]

/-- The bytes of a number spell its low bits. -/
theorem leNat_leBytes (n v : Nat) : leNat (leBytes n v) = v % 2 ^ (8 * n) := by
  induction n generalizing v with
  | zero => simp [leBytes, leNat, Nat.mod_one]
  | succ n ih =>
    have h : v % 2 ^ (8 * (n + 1)) = v % 256 + 256 * (v / 256 % 2 ^ (8 * n)) := by
      rw [show 8 * (n + 1) = 8 + 8 * n by ring, Nat.pow_add, Nat.mod_mul]
    simp only [leBytes, leNat, ih, BitVec.toNat_ofNat, h]

/-- Bytes spell a number below what their count holds. -/
theorem leNat_lt (bs : List Byte) : leNat bs < 2 ^ (8 * bs.length) := by
  induction bs with
  | nil => simp [leNat]
  | cons b bs ih =>
    have h := b.isLt
    rw [List.length_cons, show 8 * (bs.length + 1) = 8 + 8 * bs.length by ring, Nat.pow_add]
    simp only [leNat]
    generalize 2 ^ (8 * bs.length) = p at *
    omega

/-! ### Host memory -/

/-- A store keeps the canonical form of host memory. -/
theorem hostStore_wf (m : Sparse Byte) (a : Nat) (bs : List Byte) (h : Sparse.wf (0 : Byte) m = true) :
    Sparse.wf (0 : Byte) (hostStore m a bs) = true := by
  induction bs generalizing m a with
  | nil => exact h
  | cons b bs ih => exact ih _ _ (Sparse.set_wf _ _ _ _ h)

/-- A byte that a store does not reach reads as before. -/
theorem hostStore_other (m : Sparse Byte) (a x : Nat) (bs : List Byte)
    (h : ∀ k, k < bs.length → (a + k) % 2 ^ 64 ≠ x) :
    Sparse.get (0 : Byte) (hostStore m a bs) x = Sparse.get (0 : Byte) m x := by
  induction bs generalizing m a with
  | nil => rfl
  | cons b bs ih =>
    rw [hostStore, ih _ _ (fun k hk => ?_)]
    · exact Sparse.get_set_other _ _ _ _ _ (Ne.symm (h 0 (Nat.succ_pos _)))
    · rw [show a + 1 + k = a + (k + 1) by omega]
      exact h (k + 1) (Nat.succ_lt_succ hk)

/-- A stored byte reads as stored. -/
theorem hostStore_same (m : Sparse Byte) (a : Nat) (bs : List Byte) (k : Nat) (hk : k < bs.length)
    (hlen : bs.length ≤ 2 ^ 64) :
    Sparse.get (0 : Byte) (hostStore m a bs) ((a + k) % 2 ^ 64) = bs.getD k 0 := by
  induction bs generalizing m a k with
  | nil => exact absurd hk (Nat.not_lt_zero _)
  | cons b bs ih =>
    simp only [List.length_cons] at hk hlen
    cases k with
    | zero =>
      rw [hostStore, hostStore_other]
      · exact Sparse.get_set_same ..
      · intro k hk'
        omega
    | succ k =>
      rw [hostStore, show a + (k + 1) = a + 1 + k by omega, ih _ _ _ (by omega) (by omega)]
      rfl

/-- The bytes that a write to host memory stores read back. -/
theorem hostBytes_hostWrite (s : State) (realm a : Nat) (m : Option Master) (bs : List Byte) (h : bs.length ≤ 2 ^ 64) :
    hostBytes (s.hostWrite realm m a bs) a bs.length = bs := by
  refine List.ext_getElem (by simp [hostBytes]) (fun k h1 h2 => ?_)
  simp only [hostBytes, List.getElem_map, List.getElem_range]
  rw [show (s.hostWrite realm m a bs).host.mem = hostStore s.host.mem a bs from rfl, hostStore_same _ _ _ _ h2 h]
  simp [List.getD_eq_getElem?_getD, h2]

/-- A write to host memory changes host memory and the counters alone. -/
theorem hostWrite_frame (s : State) (realm a : Nat) (m : Option Master) (bs : List Byte) :
    s.hostWrite realm m a bs = { s with
      host := { s.host with mem := hostStore s.host.mem a bs }
      cnt := (s.hostWrite realm m a bs).cnt } := rfl

/-- A read of host memory changes the counters alone. -/
theorem hostRead_frame (s : State) (realm a n : Nat) (m : Option Master) :
    (s.hostRead realm m a n).2 = { s with cnt := (s.hostRead realm m a n).2.cnt } := rfl

/-! ### The stacks -/

/-- A store keeps the canonical form of the stacks' bytes. -/
theorem stackStore_wf (m : Sparse Byte) (st x : Nat) (bs : List Byte) (h : Sparse.wf (0 : Byte) m = true) :
    Sparse.wf (0 : Byte) (stackStore m st x bs) = true := by
  induction bs generalizing m x with
  | nil => exact h
  | cons b bs ih => exact ih _ _ (Sparse.set_wf _ _ _ _ h)

/-- A byte of another stack, or outside the stored ones, reads as before. -/
theorem stackStore_other (m : Sparse Byte) (st x u y : Nat) (bs : List Byte) (h : u ≠ st ∨ y < x ∨ x + bs.length ≤ y) :
    Sparse.get (0 : Byte) (stackStore m st x bs) (pairKey u y) = Sparse.get (0 : Byte) m (pairKey u y) := by
  induction bs generalizing m x with
  | nil => rfl
  | cons b bs ih =>
    simp only [List.length_cons] at h
    rw [stackStore, ih _ _ (by omega)]
    refine Sparse.get_set_other _ _ _ _ _ (fun e => ?_)
    have := pairKey_inj.mp e
    omega

/-- A stored byte reads as stored. -/
theorem stackStore_same (m : Sparse Byte) (st x : Nat) (bs : List Byte) (k : Nat) (hk : k < bs.length) :
    Sparse.get (0 : Byte) (stackStore m st x bs) (pairKey st (x + k)) = bs.getD k 0 := by
  induction bs generalizing m x k with
  | nil => exact absurd hk (Nat.not_lt_zero _)
  | cons b bs ih =>
    simp only [List.length_cons] at hk
    cases k with
    | zero =>
      rw [stackStore, stackStore_other _ _ _ _ _ _ (by omega)]
      exact Sparse.get_set_same ..
    | succ k =>
      rw [stackStore, show x + (k + 1) = x + 1 + k by omega, ih _ _ _ (by omega)]
      rfl

/-- Counting blocks changes the counters alone. -/
theorem countBlocks_frame (s : State) (write : Bool) (st x n : Nat) (a : Attr) :
    countBlocks s write st x n a = { s with cnt := (countBlocks s write st x n a).cnt } := by
  unfold countBlocks
  generalize List.range (blocksOf x n) = l
  induction l generalizing s with
  | nil => rfl
  | cons i l ih =>
    rw [List.foldl_cons, ih]
    rfl

/-! ### Time -/

/-- Time that passes changes the clocks alone. -/
theorem elapse_frame (s : State) (n : Nat) : elapse s n = { s with clk := (elapse s n).clk } := by
  unfold elapse
  split <;> rfl

theorem elapse_lath (s : State) (n : Nat) : (elapse s n).clk.lath = s.clk.lath + n := by
  unfold elapse
  split <;> rfl

theorem elapse_ns (s : State) (n : Nat) : (elapse s n).clk.ns = s.clk.ns + (if s.clk.diesOn then n else 0) := by
  unfold elapse
  split <;> rfl

@[simp] theorem elapse_diesOn (s : State) (n : Nat) : (elapse s n).clk.diesOn = s.clk.diesOn := by
  unfold elapse
  split <;> rfl

/-- While the dies run, an event at `due` finds the clock at `due`, or later where it already was. -/
theorem reachTime_ns (s : State) (due : Nat) (h : s.clk.diesOn = true) : (reachTime s due).clk.ns = max s.clk.ns due := by
  rw [reachTime, elapse_ns, if_pos h]
  omega

theorem reachLath_lath (s : State) (due : Nat) : (reachLath s due).clk.lath = max s.clk.lath due := by
  rw [reachLath, elapse_lath]
  omega

/-! ### Interrupts -/

/-- A vector that fires sends a message or sets its pending bit, and nothing else. -/
theorem msix_frame (s : State) (fn v : Nat) : s.msix fn v = { s with
    out := (s.msix fn v).out
    host := { s.host with msixPending := (s.msix fn v).host.msixPending } } := by
  unfold State.msix
  split
  · rfl
  · split <;> rfl

/-- An interrupt source that fires does the same. -/
theorem raise_frame (s : State) (src : Nat) : s.raise src = { s with
    out := (s.raise src).out
    host := { s.host with msixPending := (s.raise src).host.msixPending } } := by
  unfold State.raise
  split
  · rfl
  · simp only []
    split <;> exact msix_frame ..

@[simp] theorem raise_csr (s : State) (src : Nat) : (s.raise src).csr = s.csr := by rw [raise_frame]
@[simp] theorem raise_pending (s : State) (src : Nat) : (s.raise src).pending = s.pending := by rw [raise_frame]
@[simp] theorem raise_mem (s : State) (src : Nat) : (s.raise src).host.mem = s.host.mem := by rw [raise_frame]

/-! ### Stores read back -/

@[simp] theorem bufAt_setBuf (s : State) (h : Nat) (b : Option Buf) : bufAt (s.setBuf h b) h = b := Sparse.get_set_same ..

@[simp] theorem voqOf_setVoq (s : State) (q : Nat) (l : List Queued) : voqOf (s.setVoq q l) q = l := Sparse.get_set_same ..

@[simp] theorem eqOf_setEq (s : State) (e : Nat) (l : List Queued) : eqOf (s.setEq e l) e = l := Sparse.get_set_same ..

@[simp] theorem twChan_setTw (s : State) (c : Nat) (v : TwChan) : twChan (s.setTw c v) c = v := Sparse.get_set_same ..

theorem twChan_setTw_other (s : State) (c d : Nat) (v : TwChan) (h : d ≠ c) : twChan (s.setTw c v) d = twChan s d :=
  Sparse.get_set_other _ _ _ _ _ h

@[simp] theorem saAt_setSa (s : State) (i : Nat) (v : BitVec 512) : saAt (s.setSa i v) i = v := Sparse.get_set_same ..

@[simp] theorem streamAt_setStream (s : State) (n : Nat) (v : Stream) : streamAt (s.setStream n v) n = v := Sparse.get_set_same ..

@[simp] theorem meterAt_setMeter (s : State) (n : Nat) (v : Meter) : meterAt (s.setMeter n v) n = v := Sparse.get_set_same ..

end Sys2Proof.Machine
end

