-- ==== Sys2Proof/Laws/Threads.lean ====
section
/-! SUPPORT. Threads: one lemma per operation that issues an instruction or stores a thread. -/

namespace Sys2Proof.Machine

/-- Different threads have different keys. -/
theorem threadKey_inj {t u : Tid} (ht : t.wf = true) (hu : u.wf = true) (h : threadKey u = threadKey t) : u = t := by
  unfold threadKey at h
  rw [pairKey_inj] at h
  obtain ⟨h1, h2⟩ := h
  rcases t with ⟨a, b, c⟩ | ⟨a, b, c⟩ <;> rcases u with ⟨a', b', c'⟩ | ⟨a', b', c'⟩ <;>
    simp only [Tid.wf, sliceOk, Bool.and_eq_true, decide_eq_true_eq, coreOf, threadNo] at ht hu h1 h2
  · obtain ⟨rfl, rfl⟩ : a' = a ∧ b' = b := by omega
    rw [h2]
  · omega
  · omega
  · obtain ⟨rfl, rfl⟩ : a' = a ∧ b' = b := by omega
    rw [h2]

@[simp] theorem thread_setThread (s : State) (t : Tid) (th : Thread) : (s.setThread t th).thread t = th := by
  simp [State.setThread, State.thread]

theorem thread_setThread_other (s : State) (t u : Tid) (th : Thread) (ht : t.wf = true) (hu : u.wf = true)
    (h : u ≠ t) : (s.setThread t th).thread u = s.thread u := by
  simp only [State.setThread, State.thread]
  exact Sparse.get_set_other _ _ _ _ _ (fun e => h (threadKey_inj ht hu e))

/-- Counting issue slots changes the counters alone. -/
theorem countSlots_eq (s : State) (t : Tid) (n : Nat) :
    countSlots s t n = { s with cnt := (countSlots s t n).cnt } := by
  unfold countSlots
  split <;> rfl

/-- What issue leaves for the instruction's own effect. -/
theorem issued_eq (s : State) (t : Tid) (n : Nat) : issued s t n = { s with
    cnt := (countSlots s t n).cnt
    hn := { s.hn with threads := Sparse.set Thread.init s.hn.threads (threadKey t) (advance s t) } } := by
  unfold issued
  rw [countSlots_eq]
  rfl

/-- A thread that is about to execute a defined, legal instruction has its effect. -/
theorem issue_eq_body (s : State) (t : Tid) (w : BitVec 32) (who : Who) (n : Nat) (legal : Bool)
    (body : State → State) (h : Issues s t w) (hop : opcodeDefined (w.toNat / 2 ^ 25) = true)
    (hw : who.allows t = true) (hl : legal = true) :
    issue s t w who n legal body = body (issued s t n) := by
  obtain ⟨_, h1, h2⟩ := h
  unfold issue
  simp only [h1, h2, hw, hl, hop]
  simp

/-- An instruction whose effect is on its own thread. -/
theorem onlyThread_updThread (s : State) (t : Tid) (n : Nat) (f : Thread → Thread) (ht : t.wf = true) :
    OnlyThread s t n (f (advance s t)) ((issued s t n).updThread t f) := by
  rw [issued_eq]
  refine ⟨?_, ?_, rfl, rfl⟩
  · simp [State.updThread, State.setThread, State.thread]
  · intro u hu hne
    have hk : threadKey u ≠ threadKey t := fun e => hne (threadKey_inj ht hu e)
    simp [State.updThread, State.setThread, State.thread, Sparse.get_set_other _ _ _ _ _ hk]

theorem encA_opcode (op : Nat) (f : FmtA) (h : op < 128) : (encA op f).toNat / 2 ^ 25 = op := by
  unfold encA
  have := f.d.isLt; have := f.a.isLt; have := f.b.isLt; have := f.x.isLt
  rw [BitVec.toNat_ofNat, Nat.mod_eq_of_lt] <;> omega

theorem encI_opcode (op : Nat) (f : FmtI) (h : op < 128) : (encI op f).toNat / 2 ^ 25 = op := by
  unfold encI
  have := f.d.isLt; have := f.a.isLt; have := f.p.isLt; have := f.imm.isLt
  rw [BitVec.toNat_ofNat, Nat.mod_eq_of_lt] <;> omega

theorem encN_opcode (op : Nat) (f : FmtN) (h : op < 128) : (encN op f).toNat / 2 ^ 25 = op := by
  unfold encN
  have := f.g.isLt; have := f.off.isLt; have := f.w.isLt; have := f.base.isLt
  rw [BitVec.toNat_ofNat, Nat.mod_eq_of_lt] <;> omega

theorem encC_opcode (op : Nat) (f : FmtC) (h : op < 128) : (encC op f).toNat / 2 ^ 25 = op := by
  unfold encC
  have := f.ch.isLt; have := f.d.isLt; have := f.a.isLt; have := f.b.isLt; have := f.x.isLt
  rw [BitVec.toNat_ofNat, Nat.mod_eq_of_lt] <;> omega

theorem encB_opcode (op : Nat) (f : FmtB) (h : op < 128) : (encB op f).toNat / 2 ^ 25 = op := by
  unfold encB
  have := f.s.isLt; have := f.p.isLt; have := f.z.isLt; have := f.off.isLt
  rw [BitVec.toNat_ofNat, Nat.mod_eq_of_lt] <;> omega

end Sys2Proof.Machine
end

