-- ==== Sys2Proof/Machine/Package.lean ====
section
/-! DEFINITION. The package as the card sees it: which clock domains run (R570), the root ports' reference clocks (R575),
and the ball map (R589 to R592). -/

namespace Sys2Proof.Machine

/-! ### Clock domains and reference clocks -/

/-- Line lane `k` is powered: its port is not OFF, and outside a port not in Holdover (R540, R541). -/
def linePowered (s : State) (k : Nat) : Bool :=
  s.clk.diesOn && match lanePort s k with
    | some n => s.rd F.VT_PORT.POWER n != 2
    | none => !s.lt.held

/-- The unit of a clock domain is powered, and its domain runs (R570). -/
def domainRuns (s : State) (d : Nat) : Bool :=
  let fabric := s.clk.diesOn && !s.lt.held
  if d < 64 then linePowered s (d % 32)
  else if d < 160 then fabric
  else if d < 192 then s.clk.diesOn
  else if d < 240 then
    let st := (d - 192) / 16
    (if st = 2 then s.clk.diesOn else fabric) && !bitAt (s.rd F.HB_STATUS.RETIRED st) ((d - 192) % 16)
  else if d < 242 then fabric
  else if d < 244 then s.clk.diesOn
  else if d < 246 then s.lt.rootPower
  else if d < 252 ∨ d = 254 then s.clk.diesOn
  else if d < 257 then s.lt.running
  else true

/-- RP`p`_REFCLK is driven (R575). -/
def rootClock (s : State) (p : Nat) : Bool := decide (p < 2) && s.lt.rootPower

/-- The reference that serves line lane `k`, by its number among REFCLK_LINE0 to 3 (R574). -/
def lineRef (k : Nat) : Nat := k / 8

/-- The reference that serves fabric lane `k`, by its number among REFCLK_FAB0 to 5 (R574). -/
def fabricRef (k : Nat) : Nat := k / 8

/-! ### The ball map -/

/-- The row alphabet (R589). -/
def rowLetters : List Char :=
  ['A', 'B', 'C', 'D', 'E', 'F', 'G', 'H', 'J', 'K', 'L', 'M', 'N', 'P', 'T', 'U', 'V', 'W', 'Y']

/-- The name of row index `r`, from 0 to 73 (R589). -/
def rowName (r : Nat) : List Char :=
  let letter := rowLetters.getD (r % 19) ' '
  match r / 19 with
  | 0 => [letter]
  | 1 => ['A', letter]
  | 2 => ['B', letter]
  | _ => ['C', letter]

/-- A ball by row index and column (R589). -/
structure Ball where
  row : Nat
  col : Nat
  deriving DecidableEq, Repr

/-- RXP, RXN, TXP and TXN of line lane `k` (R590). -/
def lineBalls (k : Nat) : List Ball := [1, 2, 4, 5].map (fun r => ⟨r, 5 + 2 * k⟩)

/-- RXP, RXN, TXP and TXN of fabric lane `k` (R590). -/
def fabricBalls (k : Nat) : List Ball := [72, 71, 69, 68].map (fun r => ⟨r - 6 * (k / 24), 4 + 3 * (k % 24)⟩)

/-- RXP, RXN, TXP and TXN of endpoint lane `i` (R590). -/
def endpointBalls (i : Nat) : List Ball :=
  [⟨12 + 3 * i, 2⟩, ⟨13 + 3 * i, 2⟩, ⟨12 + 3 * i, 4⟩, ⟨13 + 3 * i, 4⟩]

/-- RXP, RXN, TXP and TXN of lane `i` of root port `p` (R590). -/
def rootBalls (p i : Nat) : List Ball :=
  let m := 4 * p + i
  [⟨12 + 3 * m, 73⟩, ⟨13 + 3 * m, 73⟩, ⟨12 + 3 * m, 71⟩, ⟨13 + 3 * m, 71⟩]

/-- P and N of REFCLK_LINE`n` and of REFCLK_FAB`n` (R590). -/
def lineRefBalls (n : Nat) : List Ball := [⟨7, 12 + 16 * n⟩, ⟨7, 13 + 16 * n⟩]
def fabricRefBalls (n : Nat) : List Ball := [⟨60, 6 + 12 * n⟩, ⟨60, 7 + 12 * n⟩]

/-- The balls of VIN and VAUX (R590). -/
def vinBalls : List Ball := (List.range 12).flatMap (fun r => (List.range 24).map (fun c => ⟨30 + r, 26 + c⟩))
def vauxBalls : List Ball := (List.range 4).map (fun c => ⟨42, 26 + c⟩)

/-- The miscellaneous signals (R591). -/
inductive Misc where
  | refclkSysP | synceOut0 | wakeIn3 | rp0RefclkP | refclkSysN | synceOut1 | tck | rp0RefclkN
  | pcieRefclkP | smbScl | tms | rp1RefclkP | pcieRefclkN | smbSda | tdi | rp1RefclkN
  | perst | smbAlert | tdo | rp0Perst | wake | addr0 | trst | rp1Perst
  | ppsIn | addr1 | testMode | wakeIn0 | ppsOut | uartTx | wakeIn1 | ref10mIn | uartRx | wakeIn2
  deriving DecidableEq, Repr

/-- The table of R591: each signal's ball. -/
def miscBalls : List (Misc × Ball) :=
  [(.refclkSysP, ⟨44, 2⟩), (.synceOut0, ⟨44, 4⟩), (.wakeIn3, ⟨44, 71⟩), (.rp0RefclkP, ⟨44, 73⟩),
   (.refclkSysN, ⟨45, 2⟩), (.synceOut1, ⟨45, 4⟩), (.tck, ⟨45, 71⟩), (.rp0RefclkN, ⟨45, 73⟩),
   (.pcieRefclkP, ⟨47, 2⟩), (.smbScl, ⟨47, 4⟩), (.tms, ⟨47, 71⟩), (.rp1RefclkP, ⟨47, 73⟩),
   (.pcieRefclkN, ⟨48, 2⟩), (.smbSda, ⟨48, 4⟩), (.tdi, ⟨48, 71⟩), (.rp1RefclkN, ⟨48, 73⟩),
   (.perst, ⟨50, 2⟩), (.smbAlert, ⟨50, 4⟩), (.tdo, ⟨50, 71⟩), (.rp0Perst, ⟨50, 73⟩),
   (.wake, ⟨51, 2⟩), (.addr0, ⟨51, 4⟩), (.trst, ⟨51, 71⟩), (.rp1Perst, ⟨51, 73⟩)] ++
  [(.ppsIn, ⟨53, 2⟩), (.addr1, ⟨53, 4⟩), (.testMode, ⟨53, 71⟩), (.wakeIn0, ⟨53, 73⟩),
   (.ppsOut, ⟨54, 2⟩), (.uartTx, ⟨54, 4⟩), (.wakeIn1, ⟨54, 73⟩),
   (.ref10mIn, ⟨56, 2⟩), (.uartRx, ⟨56, 4⟩), (.wakeIn2, ⟨56, 73⟩)]

/-- Every ball that carries a signal or a supply. -/
def namedBalls : List Ball :=
  (List.range 32).flatMap lineBalls ++ (List.range 48).flatMap fabricBalls ++ (List.range 8).flatMap endpointBalls ++
  (List.range 2).flatMap (fun p => (List.range 4).flatMap (rootBalls p)) ++ (List.range 4).flatMap lineRefBalls ++
  (List.range 6).flatMap fabricRefBalls ++ miscBalls.map (·.2) ++ vinBalls ++ vauxBalls

/-- Rows and columns of the array (R588). -/
def ballSide : Nat := 74

/-- Every ball that R590 and R591 do not name is GND (R592). -/
def isGround (b : Ball) : Bool := decide (b.row < ballSide ∧ 1 ≤ b.col ∧ b.col ≤ ballSide) && !namedBalls.contains b

end Sys2Proof.Machine
end

