-- ==== Sys2Proof/Tests/Slice0.lean ====
section
/-! SUPPORT. Tests: ill-formed commands that the checks refuse; single steps whose results the manual gives or that are
worked out by hand from its rules; and, for each statement, states that meet what it asks for. -/

namespace Sys2Proof.Tests

set_option Elab.async false

open Sys2Proof Sys2Proof.Machine

/-! ### Well-formedness -/

/-- Each check of `Instr.wf` refuses a command that breaks it alone. -/
theorem test_wf_refuses_bounds :
    ([.nop 64 0, .nop 0 16, .parseWalk 17, .ingressAdmission 160, .dispatch .egress 160, .drainEnd 1024,
      .reorderWindowExpiry 64 false, .laneDown 48, .linkChange 32 ⟨true, none, 0, 0⟩, .calendarSwitchDone 8, .saRead .smbus 1152,
      .roceAckTimeout 72, .channelStart .smbus 128, .trainingStart, .idleSelfRefresh 3, .refresh 0 2048, .railTimeout 9,
      .selftestFailure 17 0, .selftestFailure 31 0, .selftestFailure 66 0, .selftestFailure 144 0,
      .meterRead .smbus 2 0, .meterRead .smbus 0 1048576, .sweepVisit 0 2097152 false, .sweepVisit 1 33554432 false,
      .sweepVisit 2 0 false, .realmDisable .smbus 64, .hallmarkPinWrite .smbus 16, .busMasterEnableClear 64] :
        List Instr).map Instr.wf =
    [false, false, false, false, false, false, false, false, false, false, false, false, false, true, false, false, false,
      false, false, false, false, false, false, false, false, false, false, false, false] := by decide +kernel

theorem test_wf_refuses_fields :
    ([.registerWrite (.csr (.fn 64) 0 .w32 0), .registerWrite (.csr (.steward 8) 0 .w32 0),
      .registerWrite (.csr .smbus 2 .w32 0), .registerWrite (.csr .smbus 4 .w64 0),
      .registerWrite (.csr .smbus (2 ^ 26) .w32 0), .registerWrite (.numVfs 64), .registerWrite (.msixControl 64 true true),
      .bar2Write 0 (2 ^ 30) .w64 0, .iAdd (.packet 17 0 0) ⟨0, 0, 0, 0⟩, .iAdd (.packet 0 24 0) ⟨0, 0, 0, 0⟩,
      .iAdd (.packet 0 0 8) ⟨0, 0, 0, 0⟩, .iAdd (.steward 2 0 0) ⟨0, 0, 0, 0⟩, .iAdd (.steward 0 4 0) ⟨0, 0, 0, 0⟩,
      .iAdd (.steward 0 0 16) ⟨0, 0, 0, 0⟩, .imageStage 0 0 [⟨.packet 0 0, 0, .thread 8⟩],
      .imageStage 0 0 [⟨.steward 0 0, 16, .lookup⟩], .eventLineAssert 0 0 0 64, .assocBankUpdate 32 0,
      .bufferRequest [⟨25, 0, 0, 0, 0⟩], .bufferRequest [⟨0, 4096, 0, 0, 0⟩], .bufferReturn (2 ^ 33),
      .frameAgeSweep (.voq 524288), .frameAgeSweep (.eq 32768), .vartonIngress (.dieLink 25)] :
        List Instr).all (fun i => !i.wf) = true := by decide +kernel

theorem test_wf_refuses_operands :
    ([.poolGeometryWrite .smbus 64 0, .ownerReserveWrite .smbus 4096 0 0, .ownerReserveWrite .smbus 0 2 0,
      .vrfMapWrite .smbus 2 0 0, .vrfMapWrite .smbus 0 4096 0, .schedulerDecision (.port 1024), .shaperWrite .smbus 262144 0,
      .schedElementWrite .smbus (.node 16384) 0, .cellReceive 49 0 [], .cellReceive 0 0 (List.replicate 257 0),
      .xoff 65536, .twinLinkUp ⟨64, false, 0, false, false⟩, .twinLinkUp ⟨0, false, 2 ^ 32, false, false⟩,
      .changeRecord ⟨0, .write, 4096, [], 0, 0⟩, .changeRecord ⟨0, .write, 0, List.replicate 65 0, 0, 0⟩,
      .refreshRecord 4096 [], .strictMeterSync [(8192, 0)], .digestRecord 65536 0 0, .nvmeRemoval 8, .roceAck 0 (2 ^ 24) .ack,
      .segmentRead .smbus [72], .verify .smbus [72], .twMove 128 false, .moveComplete 0 16 true, .timerTick 16,
      .hbmRequest 0 [] [⟨5, 0, .write 0⟩], .hbmRequest 0 [] [⟨0, 25769803776, .write 0⟩], .hbmRequest 0 [(2048, 0)] [],
      .fullTraining 0 ⟨0, 0, [], [(32, ⟨[], [], 0, 0⟩)], []⟩, .strobeTracking 0 32 none, .migrationComplete 0 5898241,
      .rcRead (.bar2 (2 ^ 30) .w32), .rcRead (.bar4 (2 ^ 28 - 4) .w64), .rcRead (.csr (.fn 64) 0 .w32), .lathStart 4,
      .retireGo .smbus 0 16 0, .ppsEdge 100001, .columnRepair 2 0 0, .adcSample 32 0,
      .ruleWrite .smbus 256 0 0, .wakeRequest 256 .l0 true, .smbusSetOffset 0x58 (2 ^ 32) true, .smbusSetOffset 128 0 true, .smbusBlockRead 128,
      .pcFilterWrite 0 3 0,
      .twinReportReceive [], .annealMatch (2 ^ 32) 0 0] : List Instr).all (fun i => !i.wf) = true := by decide +kernel

theorem test_wf_accepts :
    ([.nop 63 15, .parseWalk 16, .dispatch .egress 159, .laneDown 47, .selftestFailure 143 0, .selftestFailure 65 0,
      .registerWrite (.csr .smbus (2 ^ 26 - 8) .w64 0), .iAdd (.steward 1 3 15) ⟨0, 0, 0, 0⟩, .bufferReturn (2 ^ 33 - 1),
      .twinReportReceive (List.replicate 256 0), .cellReceive 48 0 (List.replicate 256 0), .moveComplete 127 15 false,
      .imageStage 0 0 [⟨.steward 1 3, 15, .thread 15⟩, ⟨.packet 16 23, 15, .thread 7⟩],
      .rcRead (.bar2 (2 ^ 30 - 8) .w64), .rcRead (.bar4 (2 ^ 28 - 4) .w32), .migrationComplete 2 5898240, .lathStart 3,
      .hbmRequest 2 [(2047, 1)] [⟨4, 25769803744, .write 0⟩]] : List Instr).all Instr.wf = true := by decide +kernel

/-- The table gives the commands no bits, so that no word spells one. -/
theorem test_no_word_spells_a_command : decodeTableWord 0 0 = none ∧ decodeTableWord 32 0x44000000 = none := by decide +kernel

/-! ### States that the tests start from -/

/-- The module runs: the Lath and the dies are powered, and the endpoint is ready, with Bus Master Enable of the PF. -/
def live : State :=
  { State.reset with
    clk := { State.reset.clk with diesOn := true }
    host := { HostSt.reset with endpoint := .ready, busMaster := 1, numVfs := 2 }
    lt := { LathSt.reset with vaux := true, running := true } }

def pkt0 : Pkt := ⟨0, [0x11, 0x22, 0x33, 0x44]⟩

/-- A packet of ingress source 0 that a thread holds under slot A. -/
def job0 : Job :=
  { uid := 1, side := .ingress, obj := 0, seq := 0, slot := 0, gen := 1, pkt := pkt0, record := none, startLen := 4,
    takenAt := 0, watchdogUs := 250, pmats := 0, mtrs := 0, mirrs := 0, handler := false, faultCode := 0, copies := [],
    shadow := none, twinShadow := none }

def pt : Tid := .packet 0 0 0
def st : Tid := .steward 0 0 0

def busyThread : Thread := { Thread.init with job := some job0 }
def steward : Thread := { Thread.init with run := .running, held := some 0 }

/-- A packet thread about to execute `w`. -/
def pAt (th : Thread) (w : BitVec 32) : State := (live.setThread pt th).setCode pt th.pc w

/-- A steward thread about to execute `w`. -/
def sAt (th : Thread) (w : BitVec 32) : State := (live.setThread st th).setCode st th.pc w

/-- The state after a command. -/
def run (c : Instr) (s : State) : State :=
  match exec c s with
  | .next s' => s'
  | _ => s

/-! ### Packet instructions -/

/-- g1 = 2 and g2 = 0xFFFF_FFFF_FFFF_FFFF, p1 = 1. -/
def ops : Thread := ((busyThread.setReg 1 2).setReg 2 0xFFFFFFFFFFFFFFFF).setPred 1 true

def fA (x : BitVec 10) : FmtA := ⟨3, 1, 2, x⟩
def fI (imm : BitVec 12) : FmtI := ⟨3, 2, 0, imm⟩

/-- g3 after a command of the packet thread. -/
def g3 (c : Instr) (s : State) : Word := ((run c s).thread pt).reg 3

theorem test_encodings :
    [encA 0x01 (fA 0), encA 0x0F (fA 5), encI 0x22 ⟨0, 0, 0, 0⟩, encI 0x28 ⟨0, 1, 7, 0x802⟩, encN 0x40 ⟨1, 2, 3, 4⟩,
      encC 0x48 ⟨1, 2, 3, 4, 5⟩, encB 0x59 ⟨1, 2, 0, 0xFFFFF⟩] =
    [0x02308800#32, 0x1E308805#32, 0x44000000#32, 0x5000F802#32, 0x80100864#32, 0x90221905#32, 0xB34FFFFF#32] := by decide +kernel

theorem test_issue_format_A :
    ∀ op ∈ (List.range 32).filter opcodeDefined, Issues (pAt ops (encA op (fA 0))) pt (encA op (fA 0)) := by
  unfold Issues; decide +kernel

theorem test_add_wraps : g3 (.iAdd pt (fA 0)) (pAt ops (encA 0x01 (fA 0))) = 1 := by decide +kernel
theorem test_sub_wraps : g3 (.iSub pt (fA 0)) (pAt ops (encA 0x02 (fA 0))) = 3 := by decide +kernel
theorem test_andn : g3 (.iAndn pt ⟨3, 2, 1, 0⟩) (pAt ops (encA 0x06 ⟨3, 2, 1, 0⟩)) = 0xFFFFFFFFFFFFFFFD := by decide +kernel
theorem test_shl_takes_six_bits : g3 (.iShl pt (fA 0)) (pAt ops (encA 0x07 (fA 0))) = 0 := by decide +kernel
theorem test_shr_zero_fill : g3 (.iShr pt ⟨3, 2, 1, 0⟩) (pAt ops (encA 0x08 ⟨3, 2, 1, 0⟩)) = 0x3FFFFFFFFFFFFFFF := by
  decide +kernel
theorem test_sar_sign_fill : g3 (.iSar pt ⟨3, 2, 1, 0⟩) (pAt ops (encA 0x09 ⟨3, 2, 1, 0⟩)) = 0xFFFFFFFFFFFFFFFF := by
  decide +kernel
theorem test_mul_low_bits : g3 (.iMul pt (fA 0)) (pAt ops (encA 0x0A (fA 0))) = 0xFFFFFFFFFFFFFFFE := by decide +kernel
theorem test_sel : g3 (.iSel pt (fA 1)) (pAt ops (encA 0x0B (fA 1))) = 2 ∧
    g3 (.iSel pt (fA 0)) (pAt ops (encA 0x0B (fA 0))) = 0xFFFFFFFFFFFFFFFF := by decide +kernel
theorem test_clz : g3 (.iClz pt ⟨3, 1, 0, 0⟩) (pAt ops (encA 0x0C ⟨3, 1, 0, 0⟩)) = 62 ∧
    g3 (.iClz pt ⟨3, 0, 0, 0⟩) (pAt ops (encA 0x0C ⟨3, 0, 0, 0⟩)) = 64 := by decide +kernel
theorem test_bswap : g3 (.iBswap pt ⟨3, 1, 0, 0⟩) (pAt ops (encA 0x0D ⟨3, 1, 0, 0⟩)) = 0x0200000000000000 := by decide +kernel
/-- A sum of all ones stays 0xFFFF (R127). -/
theorem test_csum_all_ones : g3 (.iCsum pt ⟨3, 2, 0, 0⟩) (pAt ops (encA 0x0F ⟨3, 2, 0, 0⟩)) = 0xFFFF := by decide +kernel
/-- The check value of CRC-32C: the bytes "123456789". -/
theorem test_crc32c_check : crc32c [0x31, 0x32, 0x33, 0x34, 0x35, 0x36, 0x37, 0x38, 0x39] = 0xE3069283 := by decide +kernel
theorem test_field_outside_its_set_is_fault_1 :
    ((run (.iAdd pt (fA 1)) (pAt ops (encA 0x01 (fA 1)))).thread pt).job = none ∧
    (run (.iAdd pt (fA 1)) (pAt ops (encA 0x01 (fA 1)))).rd F.HN_FAULT_HEAD.TOTAL 0 = 1 := by decide +kernel

/-- p1 of the packet thread after a command. -/
def p1 (c : Instr) (s : State) : Bool := ((run c s).thread pt).pred 1

theorem test_clt_is_signed : p1 (.iClt pt ⟨0, 2, 1, 1⟩) (pAt busyThread 0) = false ∧
    p1 (.iClt pt ⟨0, 2, 1, 1⟩) (pAt ops (encA 0x13 ⟨0, 2, 1, 1⟩)) = true ∧
    p1 (.iCltu pt ⟨0, 2, 1, 1⟩) (pAt ops (encA 0x12 ⟨0, 2, 1, 1⟩)) = false := by decide +kernel
/-- Truth table 0b1000 is AND of p1 and p0, 0b0011 is NOT p1 (R128). -/
theorem test_plog : p1 (.iPlog pt ⟨0, 1, 0, 0x41⟩) (pAt ops (encA 0x14 ⟨0, 1, 0, 0x41⟩)) = false ∧
    p1 (.iPlog pt ⟨0, 1, 1, 0x41⟩) (pAt ops (encA 0x14 ⟨0, 1, 1, 0x41⟩)) = true ∧
    p1 (.iPlog pt ⟨0, 1, 0, 0x19⟩) (pAt ops (encA 0x14 ⟨0, 1, 0, 0x19⟩)) = false := by decide +kernel

theorem test_addi_sign_extends : g3 (.iAddi pt ⟨3, 1, 0, 0xFFF⟩) (pAt ops (encI 0x20 ⟨3, 1, 0, 0xFFF⟩)) = 1 := by decide +kernel
theorem test_andi_zero_extends : g3 (.iAndi pt (fI 0xFFF)) (pAt ops (encI 0x21 (fI 0xFFF))) = 0xFFF := by decide +kernel
theorem test_orsh : g3 (.iOrsh pt ⟨3, 1, 0, 0xABC⟩) (pAt ops (encI 0x27 ⟨3, 1, 0, 0xABC⟩)) = 0x2ABC := by decide +kernel
theorem test_bins_keeps_the_rest : -- lsb 4, len 8, of the low byte of all ones, into g3 = 0
    g3 (.iBins pt (fI 0x107)) (pAt ops (encI 0x2B (fI 0x107))) = 0xFF0 := by decide +kernel
theorem test_bext : g3 (.iBext pt ⟨3, 1, 0, 0x041⟩) (pAt ops (encI 0x2A ⟨3, 1, 0, 0x041⟩)) = 1 := by decide +kernel

theorem test_branch_wraps : -- off = −1 from word 0
    ((run (.iBr pt ⟨0, 0, 0, 0xFFFFF⟩) (pAt ops (encB 0x58 ⟨0, 0, 0, 0xFFFFF⟩))).thread pt).pc = 131071 := by decide +kernel
theorem test_call_leaves_its_address_plus_1 :
    ((run (.iCall pt ⟨0, 0, 0, 5⟩) (pAt ops (encB 0x5A ⟨0, 0, 0, 5⟩))).thread pt).reg 31 = 1 ∧
    ((run (.iCall pt ⟨0, 0, 0, 5⟩) (pAt ops (encB 0x5A ⟨0, 0, 0, 5⟩))).thread pt).pc = 5 := by decide +kernel

/-- What the statements on formats I, N, C and B and on steward instructions ask for: a thread issues the word. -/
theorem test_issue_other_formats :
    (∀ op ∈ [0x20, 0x2B, 0x2C, 0x2D, 0x2E, 0x2F, 0x30, 0x31, 0x32, 0x33, 0x34, 0x35],
      Issues (pAt ops (encI op (fI 1))) pt (encI op (fI 1))) ∧
    (∀ op ∈ [0x40, 0x41, 0x42, 0x43, 0x44], Issues (pAt ops (encN op ⟨3, 2, 2, 0⟩)) pt (encN op ⟨3, 2, 2, 0⟩)) ∧
    (∀ op ∈ [0x48, 0x4D, 0x4F, 0x50], Issues (pAt ops (encC op ⟨0, 3, 1, 2, 0⟩)) pt (encC op ⟨0, 3, 1, 2, 0⟩)) ∧
    (∀ op ∈ [0x58, 0x59, 0x5A], Issues (pAt ops (encB op ⟨0, 0, 0, 9⟩)) pt (encB op ⟨0, 0, 0, 9⟩)) ∧
    (∀ op ∈ [0x60, 0x61, 0x62, 0x63, 0x65], Issues (sAt steward (encA op ⟨3, 1, 0, 0⟩)) st (encA op ⟨3, 1, 0, 0⟩)) ∧
    Issues (sAt steward (encC 0x64 ⟨0, 0, 1, 0, 0⟩)) st (encC 0x64 ⟨0, 0, 1, 0, 0⟩) := by
  unfold Issues; decide +kernel

/-! ### The packet, the ticket, memory and channels -/

/-- Layer 0 lies 2 nibbles into the packet (its word of the parse record is 2). -/
theorem test_ldn_reads_window :
    g3 (.iLdn pt ⟨3, 1, 2, 16⟩) (pAt ops (encN 0x40 ⟨3, 1, 2, 16⟩)) = 0x12 := by decide +kernel
theorem test_stn_writes_window :
    ((run (.iStn pt ⟨1, 1, 2, 16⟩) (pAt ops (encN 0x41 ⟨1, 1, 2, 16⟩))).thread pt).pktData = [0x10, 0x22, 0x33, 0x44] := by
  decide +kernel
theorem test_kputg_most_significant_first :
    let s := run (.iKputg pt ⟨0, 1, 0, 2⟩) (pAt ops (encI 0x2C ⟨0, 1, 0, 2⟩))
    (s.thread pt).kpos = 2 ∧ keyNib (s.thread pt).key 0 = 0 ∧ keyNib (s.thread pt).key 1 = 2 := by decide +kernel
theorem test_key_stops_at_160 :
    (keyAppend { busyThread with kpos := 159 } [5, 6]).kpos = 160 ∧
    keyNib (keyAppend { busyThread with kpos := 159 } [5, 6]).key 159 = 5 := by decide +kernel
/-- STT at byte 2: bits [6:5] stay (R135). -/
theorem test_stt_keeps_hardware_bits : (sttBytes 0 2 1 0xFF).toNat / 65536 = 0x9F ∧ sttBytes 0 4 1 0xFF = 0 := by
  decide +kernel
theorem test_stl_then_ldl :
    let s := run (.iStl pt ⟨2, 0, 0, 0x404⟩) (pAt ops (encI 0x2F ⟨2, 0, 0, 0x404⟩))
    lmemByte s 0 4 = 0xFF ∧ lmemByte s 0 5 = 0xFF ∧ lmemByte s 0 6 = 0 := by decide +kernel
theorem test_local_access_past_the_threads_part_is_fault_2 : -- thread 0 has 8,192 bytes
    let th := busyThread.setReg 1 8191
    let f : FmtI := ⟨3, 1, 0, 0x400⟩
    let s := run (.iLdl pt f) (pAt th (encI 0x2E f))
    (s.thread pt).job = none ∧ (Sparse.get [] s.hn.faultRecs 0).head? = some 2 := by decide +kernel
theorem test_fins :
    let s := run (.iFins pt ⟨0, 1, 1, 1⟩) (pAt (ops.setPred 1 false) (encI 0x31 ⟨0, 1, 1, 1⟩))
    (s.thread pt).pktData = [0x11, 0x22, 0, 0x33, 0x44] ∧ (s.thread pt).pred 1 = true := by decide +kernel
theorem test_fdel_past_the_end_is_refused :
    let s := run (.iFdel pt ⟨0, 1, 1, 3⟩) (pAt ops (encI 0x32 ⟨0, 1, 1, 3⟩))
    (s.thread pt).pktData = pkt0.data ∧ (s.thread pt).pred 1 = false := by decide +kernel
theorem test_rdsys_identity : -- a steward thread 2 of core 1 of Varton
    let t : Tid := .steward 1 1 2
    let f : FmtI := ⟨3, 0, 0, 3⟩
    let s := (live.setThread t steward).setCode t 0 (encI 0x30 f)
    ((run (.iRdsys t f) s).thread t).reg 3 = 0x03010002 := by decide +kernel
theorem test_cst_next_word_is_the_old_one :
    let th := (busyThread.setReg 1 1).setReg 2 0x44000000
    let s := run (.iCst pt ⟨0, 1, 2, 0⟩) (pAt th (encA 0x1A ⟨0, 1, 2, 0⟩))
    codeWord s pt 1 = (0x44000000#32, false) ∧ fetchWord s pt = (0, false) := by decide +kernel
theorem test_fwd_retires :
    let s := run (.iFwd pt ⟨0, 0, 0, 0⟩) (pAt ops (encI 0x34 ⟨0, 0, 0, 0⟩))
    s.thread pt = Thread.init ∧ ((s.obj .ingress 0).retired.map (fun r => r.out.isSome)) = [true] := by decide +kernel
theorem test_drop_is_counted :
    let s := run (.iDrop pt ⟨0, 0, 0, 0⟩) (pAt ops (encI 0x35 ⟨0, 0, 0, 0⟩))
    Sparse.get 0 s.cnt.events 70 = 1 ∧ ((s.obj .ingress 0).retired.map (fun r => r.out.isSome)) = [false] := by decide +kernel
theorem test_mirr_of_an_ingress_packet :
    let s := run (.iMirr pt ⟨0, 0, 1, 1023⟩) (pAt (ops.setPred 1 false) (encI 0x33 ⟨0, 0, 1, 1023⟩))
    (s.thread pt).pred 1 = true ∧ ((s.thread pt).job.map (fun j => j.copies.map (fun c => Tk.session c.ticket))) = some [1023] := by
  decide +kernel

/-- Channel `ch` of a core is bound. -/
def bound (steward : Bool) (ch : Nat) (b : Binding) (s : State) : State :=
  s.updCoat 0 (fun c => { c with binds := [⟨if steward then .steward 0 0 else .packet 0 0, ch, b⟩] })

theorem test_lkup_request_is_sent :
    let f : FmtC := ⟨0, 0, 1, 2, 0⟩
    let s := bound false 0 .lookup (pAt ops (encC 0x48 f))
    binding s pt 0 = .lookup ∧ (run (.iLkup pt f) s).hn.reqs.map (fun r => r.kind) =
      [.lkup 2 0xFFFFFFFFFFFFFFFF [] 0] := by decide +kernel
/-- The other bindings that channel instructions ask for. -/
theorem test_bindings :
    binding (bound false 3 .pattern (pAt ops 0)) pt 3 = .pattern ∧ binding (bound false 3 .meters (pAt ops 0)) pt 3 = .meters ∧
    binding (bound false 15 .counters (pAt ops 0)) pt 15 = .counters ∧
    binding (bound false 3 (.thread 0) (pAt ops 0)) pt 3 = .thread (threadNo pt) ∧
    binding (bound true 3 (.thread 0) (sAt steward 0)) st 3 = .thread (threadNo st) := by decide +kernel
theorem test_send_then_recvp :
    let f : FmtC := ⟨3, 0, 1, 2, 0⟩
    let s := run (.iSend pt f) (bound false 3 (.thread 0) (pAt ops (encC 0x4E f)))
    let g : FmtC := ⟨3, 4, 0, 0, 1⟩
    let s' := run (.iRecvp pt g) (s.setCode pt 1 (encC 0x50 g))
    (s.chan (coreOf pt) 3).entries = [⟨2, 0xFFFFFFFFFFFFFFFF, 0⟩] ∧ (s'.thread pt).reg 4 = 2 ∧ (s'.thread pt).pred 1 = true ∧
      (s'.chan (coreOf pt) 3).entries = [] := by decide +kernel
/-- A channel with eight entries is full; one with none and a reader gives a SEND's words to the reader. -/
theorem test_channel_hypotheses :
    let full := (pAt ops 0).setChan 0 3 { Chan.init with entries := List.replicate 8 ⟨0, 0, 0⟩ }
    let waits := (pAt ops 0).setChan 0 3 { Chan.init with readers := [1] }
    8 ≤ (full.chan (coreOf pt) 3).entries.length ∧ (full.chan (coreOf pt) 3).held = [] ∧
      (waits.chan (coreOf pt) 3).readers = [1] := by decide +kernel
theorem test_cnta :
    let f : FmtC := ⟨0, 0, 1, 2, 0⟩
    let s := run (.iCnta pt f) (bound false 0 .counters (pAt ops (encC 0x4C f)))
    Sparse.get 0 s.cnt.progPackets 2 = 1 ∧ Sparse.get 0 s.cnt.progBytes 2 = 0xFFFFFFFF := by decide +kernel
theorem test_wevt_takes_its_bits :
    let th := { steward.setReg 1 3 with events := 5 }
    let s := run (.iWevt st ⟨3, 1, 0, 0⟩) (sAt th (encA 0x60 ⟨3, 1, 0, 0⟩))
    (s.thread st).reg 3 = 1 ∧ (s.thread st).events = 4 := by decide +kernel
theorem test_tstart_restarts_a_stopped_thread :
    let t : Tid := .steward 0 0 5
    let s := (sAt ((steward.setReg 1 5).setReg 2 100) (encA 0x62 ⟨0, 1, 2, 1⟩)).setThread t { Thread.init with run := .stopped }
    ((run (.iTstart st ⟨0, 1, 2, 1⟩) s).thread t).run = .running ∧ ((run (.iTstart st ⟨0, 1, 2, 1⟩) s).thread t).pc = 100 := by
  decide +kernel
theorem test_event_line_wakes_wevt :
    let th := { steward with blocked := .wevt 3 4 }
    let s := run (.eventLineAssert 0 0 0 2) (live.setThread st th)
    (s.thread st).reg 3 = 4 ∧ (s.thread st).blocked = .none ∧ (s.thread st).events = 0 := by decide +kernel

/-! ### Replies, admission, dispatch, the walk and the watchdog -/

/-- A request of each kind waits for its reply, with its entry reserved. -/
def asking (k : ReqKind) : State :=
  let s := (live.setThread pt busyThread).setChan 0 0 { Chan.init with reserved := [7] }
  { s with hn := { s.hn with reqs := [⟨7, pt, 0, 1, {}, k⟩] } }

theorem test_reply_hypotheses :
    ∀ k ∈ [ReqKind.lkup 0 0 [] 0, .asrch 0 [] 0, .pmat 0 0 [] 0 true, .mtr 0 0 false 0 0 true, .xrd 0],
      findReq (asking k) 7 = some ⟨7, pt, 0, 1, {}, k⟩ ∧ ((asking k).chan (coreOf pt) 0).reserved = [7] ∧
      ((asking k).chan (coreOf pt) 0).readers = [] ∧ ((asking k).chan (coreOf pt) 0).held = [] ∧
      shadowOf (asking k) ⟨7, pt, 0, 1, {}, k⟩ = (none, none) ∧ (asking k).host.busMaster % 2 = 1 := by decide +kernel
theorem test_reply_beyond_the_limit : -- status 1 (LIMIT), OPS 24
    let s := asking (.lkup 0 0 [] 0)
    let t := { s with hn := { s.hn with opsUsed := [(1, 24)] } }
    ((run (.lkupReply 7) t).chan 0 0).entries = [⟨0xC00010, 0, 1⟩] := by decide +kernel
theorem test_xrd_reply_of_host_memory :
    let s := asking (.xrd 16)
    let t := { s with host := { s.host with mem := [(16, 0x5A)] } }
    ((run (.xrdReply 7) t).chan 0 0).entries = [⟨0x5A, 0, 1⟩] := by decide +kernel

/-- A frame has arrived from source 3, and its source has admission state `a`. -/
def arrived (a : AdmSt) : State :=
  { live with hn := { live.hn with rxQueue := [(3, [pkt0])], adm := a } }

theorem test_admitted_frame_joins_the_buffer :
    (run (.ingressAdmission 3) (arrived State.reset.hn.adm)).hn.dispatchBuf.length = 1 ∧
    (run (.ingressAdmission 3) (arrived { State.reset.hn.adm with shedding := true })).hn.dispatchBuf = [] ∧
    Sparse.get 0 (run (.ingressAdmission 3) (arrived { State.reset.hn.adm with shedding := true })).cnt.events 65 = 1 := by
  decide +kernel
/-- SHED_ON is 0 KiB in this state, so that any backlog starts Shedding; 15 calm epochs and an empty buffer end it. -/
theorem test_epoch_enters_and_leaves_shedding :
    (run .admissionEpochEnd (live.wr F.HN_ADM_CTRL.SHED_ON 0 0)).hn.adm.shedding = true ∧
    (run .admissionEpochEnd (arrived { State.reset.hn.adm with shedding := true, calm := 15 })).hn.adm.shedding = false := by
  decide +kernel

/-- One slice in the list, and a coat in force. -/
def serving : State :=
  let s := live.wr F.SY_COAT_STATUS.GENERATION 0 1
  { s with hn := { s.hn with active := some 2 :: List.replicate 15 none } }

theorem test_dispatch_stamps_and_numbers :
    let s := { serving with hn := { serving.hn with dispatchBuf := [(3, 0, pkt0)] } }
    (takeFrame s .ingress 3).isSome = true ∧ positionSlice s 0 = some 2 ∧ sliceRoom s 2 = true ∧ shadowSlices s = [] ∧
    ((run (.dispatch .ingress 3) s).slice 2).queue.map (fun j => (j.obj, j.seq, j.gen)) = [(3, 0, 1)] := by decide +kernel
theorem test_release_is_in_sequence :
    let o := { ObjSt.init with retired := [⟨1, some pkt0, []⟩, ⟨0, none, [pkt0]⟩], inflight := 2 }
    let s := live.setObj .ingress 3 o
    (run (.reorderRelease .ingress 3) s).hn.dieLink.length = 1 ∧
    ((run (.reorderRelease .ingress 3) s).obj .ingress 3).nextRelease = 1 := by decide +kernel
theorem test_walk_and_take :
    let s := live.setSlice 0 { SliceSt.init with queue := [job0] }
    let s' := run (.parseWalk 0) s
    let s'' := run (.threadTakePacket 0) s'
    (s'.slice 0).queue.map (fun j => j.record.map List.length) = [some 64] ∧ freeThread s' 0 = some (0, 0) ∧
    (s''.slice 0).queue = [] ∧ (s''.thread pt).reg 1 = 4 := by decide +kernel
theorem test_fault_handler_takes_the_faulted_packet :
    let s := live.setSlice 0 { SliceSt.init with handlers := [{ job0 with record := some [], faultCode := 4 }] }
    ((run (.faultHandlerStart 0) s).slice 0).handlers = [] ∧ ((run (.faultHandlerStart 0) s).thread pt).reg 1 = 4 := by
  decide +kernel
theorem test_watchdog_fault_4 :
    let s := run (.watchdogExpiry pt) (live.setThread pt busyThread)
    (Sparse.get [] s.hn.faultRecs 0).head? = some 4 ∧ s.clk.ns = 250000 ∧ (s.thread pt).job = none := by decide +kernel

/-! ### Steps, registers, rings, images and tables -/

theorem test_step_idles_for_a_nanosecond :
    (match step live with
      | .next s => some (s.clk.ns, s.clk.lath)
      | _ => none) = some (1, 1) := by decide +kernel
theorem test_reset_is_canonical :
    Sparse.wf (0 : Byte) live.host.mem = true ∧ Sparse.rising (live.wr F.LT_POWER.STATE 0 4).csr = true := by decide +kernel

/-- The module with realm 1 enabled, its rings served, and realm privilege. -/
def hosted : State :=
  ((live.wr F.SY_REALM_CTRL.ENABLE 1 1).wr F.SY_REALM_CTRL.PRIV 1 0).wr F.SY_IMAGE_STATUS.SERVICE_READY 0 1

theorem test_offsets : -- SY_HALLMARK and SY_RING_BASE of ring 15 (R49, R57)
    regOffset .SY_HALLMARK 0 0 = 0x20 ∧ RegOk .SY_RING_BASE 15 0 ∧ RegOk .TN_TWIN_REPORT 0 31 ∧ RegOk .FR_TEMPLATE 8 0 ∧
    RegOk .SY_SVC_UNIT 143 0 := by unfold RegOk; decide +kernel
theorem test_reaches_as_the_owner :
    ∀ x ∈ [(Reg.SY_REALM_CTRL, 1, 0), (.SY_RING_BASE, 0, 0), (.SY_RING_BASE, 15, 0), (.SY_PUNT_BASE, 0, 0), (.SY_HALLMARK, 0, 0),
      (.PC_HR_CTRL, 0, 0), (.HN_ADM_CTRL, 0, 0), (.LK_VRF_MAP, 8191, 0), (.VT_POOL_GEOM, 63, 0), (.VT_OWNER, 4095, 0),
      (.VT_OWNER, 4095, 1), (.VT_OWNER, 4095, 2), (.VT_OWNER, 4095, 3), (.VT_MTR_WIN, 1, 0), (.VT_SHAPER, 262143, 0),
      (.VT_PORT, 255, 0), (.VT_NODE, 16383, 0), (.VT_EQ, 32767, 0), (.VT_VOQ, 524287, 0), (.PC_FILTER, 0, 0),
      (.PC_FILTER, 0, 1), (.PC_FILTER, 0, 2)], Reaches hosted (.fn 0) x.1 x.2.1 x.2.2 := by
  unfold Reaches RegOk; decide +kernel
theorem test_reaches_as_a_realm_and_over_SMBus :
    Reaches hosted (.fn 1) .SY_RING_BASE 15 0 ∧ Reaches hosted (.fn 1) .SY_PUNT_BASE 0 0 ∧ Reaches hosted (.fn 1) .PC_FILTER 0 2 ∧
    Reaches hosted .smbus .SY_HALLMARK 0 0 ∧ Reaches hosted .smbus .LT_RULE 255 1 := by
  unfold Reaches RegOk; decide +kernel

theorem test_access_codes : -- RW is stored, its range clamped; reserved bits stay 0 (R39, R40)
    let s := run (.registerWrite (.csr (.fn 0) (regOffset .PC_HR_CTRL 0 0) .w64 0xFFFFFFFFFFFFFFFF)) hosted
    s.rd F.PC_HR_CTRL.EN 0 = 1 ∧ s.rd F.PC_HR_CTRL.LOG2_SLOTS 0 = 7 ∧ (s.word .PC_HR_CTRL 0 0).toNat = 0xFFFFFFFFFFFFFF0F ∧
    Sparse.get 0 s.cnt.events 1232 = 1 := by decide +kernel
theorem test_two_halves_make_one_write : -- the low half is held until the high half is written (R36)
    let o := regOffset .PC_HR_CTRL 0 0
    let s := run (.registerWrite (.csr (.fn 0) o .w32 0x101)) hosted
    let t := run (.registerWrite (.csr (.fn 0) (o + 4) .w32 0)) s
    s.rd F.PC_HR_CTRL.EN 0 = 0 ∧ t.rd F.PC_HR_CTRL.EN 0 = 1 ∧ t.rd F.PC_HR_CTRL.BASE 0 = 1 := by decide +kernel
theorem test_realm_disable :
    let s := hosted.wr F.SY_RING_BASE.ENABLE (ringNo 1 3) 1
    realmExists s 1 = true ∧ (run (.realmDisable (.fn 0) 1) s).rd F.SY_RING_BASE.ENABLE (ringNo 1 3) = 0 ∧
    realmExists (run (.realmDisable (.fn 0) 1) s) 1 = false := by decide +kernel
theorem test_ring_enable_sets_head_to_tail :
    let s := run (.ringEnable 0 2 0x1108) (hosted.wr F.SY_RING_PTRS.TAIL 2 9)
    s.rd F.SY_RING_BASE.ENABLE 2 = 1 ∧ s.rd F.SY_RING_PTRS.HEAD 2 = 9 ∧ s.rd F.SY_RING_BASE.LOG2_ENTRIES 2 = 8 ∧
    s.rd F.SY_RING_BASE.BASE 2 = 1 := by decide +kernel
theorem test_ts_fifo_hypotheses : -- an empty FIFO, and one whose oldest timestamp is (tag 5, 77 ns)
    let s := { hosted with pt := { hosted.pt with tsQ := [(0, [(5, 77)])] } }
    reachable s (.fn 0) (regOffset .PT_TS_FIFO 0 0) (.reg .PT_TS_FIFO 0 0) = true ∧ canAccess s (.fn 0) = true ∧
    hostBehind s (.fn 0) = false ∧ (run (.tsFifoRead (.fn 0) 0) s).rd F.PT_TS_FIFO.TIME 0 = 77 ∧
    (run (.tsFifoRead (.fn 0) 0) s).pt.tsQ = [] ∧
    (run (.tsFifoRead (.fn 0) 31) s).out.length = 1 := by decide +kernel
theorem test_msix_hypotheses : -- a held message of vector 3 of the PF, which enabling MSI-X lets go
    let s := { hosted with host := { hosted.host with msixPending := [(pairKey 0 3, true)], msixCtl := [(pairKey 0 3, 0)] } }
    let t := { s with host := { s.host with msixEnable := 1 } }
    Sparse.get false s.host.msixPending (pairKey 0 3) = true ∧ msixOpen s 0 3 = false ∧ msixOpen t 0 3 = true := by
  decide +kernel

/-- Ring 0 of the PF has the descriptor `d` at 4,096. -/
def ringWith (d : List Byte) (s : State) : State :=
  let s := ((s.wr F.SY_RING_BASE.BASE 0 1).wr F.SY_RING_BASE.ENABLE 0 1).wr F.SY_RING_PTRS.TAIL 0 1
  { s with host := { s.host with mem := hostStore s.host.mem 4096 d } }

/-- A descriptor: opcode, and parameters from byte 8. -/
def desc (op : Nat) (ps : List Byte) : List Byte := splice (leBytes 2 op ++ List.replicate 62 0) 8 ps

theorem test_ring_takes_each_opcode :
    ∀ op ∈ [0, 1, 2, 0x10, 0x20, 0x30, 0x40, 0x50], RingTakes (ringWith (desc op []) hosted) 0 0 (desc op []) ∧
      ringOp (ringWith (desc op []) hosted) 0 (desc op []) = op := by unfold RingTakes; decide +kernel
theorem test_nop_completes_done :
    let s := run (.nop 0 0) (ringWith (desc 0 []) hosted)
    s.rd F.SY_RING_PTRS.HEAD 0 = 1 ∧ hostBytes s 4096 4 = [0, 0, 0, 1] := by decide +kernel
theorem test_csr_read_of_the_hallmark : -- ACTIVE, PIN and NATIVE are 3 after reset
    let d := desc 1 (leBytes 4 0x20)
    hostBytes (run (.csrRead 0 0) (ringWith d hosted)) (4096 + 16) 8 = [0x33, 0x03, 0, 0, 0, 0, 0, 0] := by decide +kernel
theorem test_csr_write_writes_back_the_clamped_value :
    let d := desc 2 (leBytes 4 0x20 ++ leBytes 4 0 ++ leBytes 8 0xF0)
    let s := run (.csrWrite 0 0) (ringWith d hosted)
    s.rd F.SY_HALLMARK.PIN 0 = 3 ∧ (hostBytes s 4096 4).getLast? = some 1 := by decide +kernel
theorem test_signal_event_asserts_line_63 :
    let d := desc 0x50 (leBytes 2 0x112)
    ((run (.signalEvent 0 0) (ringWith d hosted)).thread (.steward 1 1 2)).events = 0x8000000000000000 := by decide +kernel
theorem test_snapshot_hypotheses :
    let d := desc 0x30 ([0, 0] ++ leBytes 2 70 ++ leBytes 4 0 ++ leBytes 4 1 ++ leBytes 4 0 ++ leBytes 8 0)
    let s := ringWith d { hosted with cnt := { hosted.cnt with events := [(70, 9)] } }
    (hostBytes (run (.counterSnapshot 0 0) s) (4096 + 40) 4) = leBytes 4 1 := by decide +kernel
theorem test_coalescing_hypotheses :
    let s := ((hosted.wr F.SY_RING_BASE.IRQ 16 1).wr F.SY_RING_COAL.DELAY_US 16 7).wr F.SY_REALM_CTRL.ENABLE 1 1
    let r : RingSt := { RingSt.init with firstAt := some 1000 }
    let t := { s with host := { s.host with rings := [(16, r)] } }
    3 ≤ abiLevel t 1 ∧ t.on F.SY_RING_BASE.IRQ (ringNo 1 0) = true ∧ t.rd F.SY_RING_COAL.DELAY_US (ringNo 1 0) = 7 := by
  decide +kernel

/-- Generation 1 is in force in slot A, and a RECOAT of ring 0 may be accepted. -/
def staged : State := (hosted.wr F.SY_COAT_STATUS.GENERATION 0 1).wr F.SY_IMAGE_STATUS.STATE 0 2

theorem test_recoat_is_accepted :
    let d := desc 0x40 (leBytes 4 1)
    let s := run (.recoat 0 0) (ringWith d staged)
    s.rd F.SY_COAT_STATUS.STATE 0 = 1 ∧ s.coat.recoatBy = some (0, 0) ∧ activeSlot (run .recoatFlip s) = 1 ∧
    (run .recoatFlip s).rd F.SY_COAT_STATUS.GENERATION 0 = 2 ∧ oldGone (run .recoatFlip s) = true ∧
    (run .recoatDrainEnd (run .recoatFlip s)).rd F.SY_COAT_STATUS.STATE 0 = 0 := by decide +kernel
theorem test_recoat_of_another_generation_is_refused :
    let d := desc 0x40 (leBytes 4 2)
    (run (.recoat 0 0) (ringWith d staged)).rd F.SY_COAT_STATUS.STATE 0 = 0 := by decide +kernel
theorem test_image_header_fails :
    let d := desc 0x20 (leBytes 8 0 ++ leBytes 4 64)
    let s := ringWith d hosted
    let t := ringTaken s 0 0 []
    headerCheck s (t.hostRead 0 serveMaster 0 64).1 64 = some 4 ∨ (headerCheck s (t.hostRead 0 serveMaster 0 64).1 64).isSome := by
  decide +kernel
theorem test_bar2_write_changes_the_staged_coat : -- the first word of slice 0's code
    let s := run (.bar2Write 0 0 .w32 0x44000000) hosted
    bar2At hosted 0 = some (.code 0 0) ∧ Sparse.get 0 (coatOf s 1).code (pairKey 0 0) = 0x44000000 ∧
    Sparse.get 0 (coatOf s 0).code (pairKey 0 0) = 0 ∧
    (run (.bar2Write 0 0 .w32 1) (hosted.wr F.SY_COAT_STATUS.STATE 0 1)).coat.waits.length = 1 := by decide +kernel

/-- Table 5 is a HASH table of 2^4 slots in the SRAM home, of 8-nibble keys, that learns, ages after 3 ticks and is in both
views. -/
def tabled : State :=
  let s := (hosted.setDescWord 5 0 (clampGeom (2 + 8 * 16 + 4 * 4096))).setDescWord 5 1 (3 + 3 * 256 + 100 * 2 ^ 32)
  s.setDescWord 5 2 3

def key8 : List (BitVec 4) := [1, 2, 3, 4, 5, 6, 7, 8]

/-- A TABLE_OP on table 5: operation, flags, data and the key's bytes. -/
def tableOp (op flags data : Nat) : List Byte :=
  desc 0x10 ([BitVec.ofNat 8 op, BitVec.ofNat 8 flags] ++ leBytes 2 5 ++ leBytes 4 0 ++ leBytes 8 data ++ leBytes 8 0 ++
    [0x12, 0x34, 0x56, 0x78])

/-- RESULT of ring 0's TABLE_OP. -/
def result (s : State) : Nat := leNat (hostBytes s (4096 + 12) 2)

theorem test_insert_then_read :
    let s := run (.tableInsert 0 0) (ringWith (tableOp 1 1 77) tabled)
    let t := run (.tableOpRead 0 0) (ringWith (tableOp 0 1 0) (s.wr F.SY_RING_PTRS.HEAD 0 0))
    result s = 0 ∧ result t = 0 ∧ leNat (hostBytes t (4096 + 16) 8) = 77 ∧
    result (run (.tableInsert 0 0) (ringWith (tableOp 1 1 78) (s.wr F.SY_RING_PTRS.HEAD 0 0))) = 1 ∧
    result (run (.tableDelete 0 0) (ringWith (tableOp 2 1 0) (s.wr F.SY_RING_PTRS.HEAD 0 0))) = 0 := by decide +kernel
theorem test_table_op_results :
    result (run (.tableOpRead 0 0) (ringWith (tableOp 0 1 0) hosted)) = 4 ∧
    result (run (.tableOpRead 0 0) (ringWith (tableOp 0 1 0) tabled)) = 2 ∧
    result (run (.tableDelete 0 0) (ringWith (tableOp 2 0 0) tabled)) = 2 ∧
    isTableOf tabled 5 0 = true ∧ topEKey tabled (tableOp 0 0 0) = .nibs key8 := by decide +kernel
theorem test_route_change_is_queued : -- table 5 as an LPM table
    let s := ringWith (tableOp 1 1 9) (tabled.setDescWord 5 0 3)
    tblKind s 5 = 3 ∧ (run (.tableInsert 0 0) s).lk.routeQ.length = 1 ∧
    (run .routeChange (run (.tableInsert 0 0) s)).lk.routeQ = [] := by decide +kernel
theorem test_assoc_write_and_read_complete :
    result (run (.assocWrite 0 0) (ringWith (tableOp 5 1 0) hosted)) = 0 ∧
    result (run (.assocRead 0 0) (ringWith (tableOp 6 1 0) hosted)) = 0 := by decide +kernel
theorem test_flush_and_realign_complete :
    result (run (.tableFlush 0 0) (ringWith (tableOp 3 1 0) tabled)) = 0 ∧
    result (run (.realign 0 0) (ringWith (tableOp 4 0 0) tabled)) = 0 ∧
    result (run (.realign 0 0) (ringWith (tableOp 4 4 0) tabled)) = 0 := by decide +kernel

/-- Key 12345678 of table 5 has been learned with data 77. -/
def learned : State :=
  run .learnEngineEvent { tabled with lk := { tabled.lk with learnQ := [⟨5, key8, 8, 77, 0⟩] } }

theorem test_learning_and_ageing :
    (itemsOf learned 5 (.nibs key8)).map (fun e => (e.2.data, e.2.learned)) = [(77, true)] ∧
    (match learned.lk.slots with
      | [(k, some _)] => (run (.sweepVisit 0 (unpair k).2 false)
          ((learned.wr F.LK_AGE_CTRL.NOW 0 3).wr F.LK_AGE_CTRL.EN 0 1)).lk.sweeps.length
      | _ => 0) = 1 ∧
    (run .ageCompareDelete { learned with lk := { learned.lk with sweeps := [(5, key8, 0)] } }).lk.slots = [] ∧
    ageNow (run .ageTick learned) = 1 := by decide +kernel
theorem test_assoc_update_reaches_its_bank :
    let s := { hosted with lk := { hosted.lk with updates := [(2, [⟨7, 1, none⟩])], lastUpdate := [(2, some 5)] } }
    let t := run (.assocBankUpdate 2 3) s
    Sparse.get 0 t.lk.assocBank (2 * 8192 + 7) = 1 ∧ t.lk.updates = [] ∧ bankOos s 2 = false ∧
    Sparse.get 0 t.cnt.objects (pairKey 194 2) = 3 ∧ t.clk.ns = updateDue s 2 ∧
    (run (.assocBankUpdate 2 0) { s with lk := { s.lk with assocHeld := [⟨2 * 8192 + 9, 4, none⟩] } }).lk.assocHeld = [] := by
  decide +kernel
theorem test_vrf_move_is_queued :
    (run (.vrfMapWrite (.fn 0) 0 9 1) hosted).lk.routeQ = [.vrf 0 9 0] := by decide +kernel

/-- This module leads, or follows, on a link that is up. -/
def leads : State := ((hosted.wr F.TN_STATUS.LINK 0 1).wr F.TN_STATUS.ROLE 0 1).wr F.TN_STATUS.STATE 0 2
def follows : State := ((hosted.wr F.TN_STATUS.LINK 0 1).wr F.TN_STATUS.ROLE 0 0).wr F.TN_STATUS.STATE 0 4

theorem test_twin_role_hypotheses :
    tnLead leads = true ∧ tnLink leads = true ∧ tnFollower follows = true ∧ tnLink follows = true := by decide +kernel

/-! ### Buffers, queues, schedulers and destinations -/

/-- Pool 0 (class 0, SRAM) has 8 units; owner 0 has a reserve of 1 and a limit of 3 units. -/
def pooled : State :=
  let s := (hosted.wr F.VT_POOL_GEOM.COUNT 0 8).wr F.VT_POOL_GEOM.EN 0 1
  (s.wr F.VT_OWNER.RSV0 0 1).wr F.VT_OWNER.LIMIT 0 3

def ask : BufReq := ⟨3, 0, 100, 0, 0⟩

/-- The handles that a cycle's requests were given. -/
def given (s : State) : List (Option Nat) := s.bm.decided.map (fun d => d.handle)

theorem test_first_buffer_is_the_reserve :
    let s := run (.bufferRequest [ask]) pooled
    given s = [some 0] ∧ (bufAt s 0).map (fun b => b.reserve) = some true ∧ ownerDrawn pooled 0 0 < ownerRsv pooled 0 0 ∧
    1 ≤ visitFree pooled 0 ∧ spillOn pooled 0 = false := by decide +kernel
theorem test_shares_then_the_limit_refuses : -- the reserve is drawn, and the owner has 1 of its 3 units
    let s := run (.bufferRequest [ask]) pooled
    let t := { s with bm := { s.bm with decided := [] } }
    poolShared t 0 = 7 ∧ ownerUnits t 0 = 1 ∧
    given (run (.bufferRequest [ask]) (t.wr F.VT_OWNER.LIMIT 0 1)) = [none] := by decide +kernel
theorem test_nothing_free :
    let s := pooled.wr F.VT_POOL_GEOM.COUNT 0 0
    visitFree s 0 = 0 ∧ s.on F.VT_POOL_POLICY.FB_EN 0 = false ∧ s.rd F.VT_POOL_GEOM.HOME 0 ≤ 2 := by decide +kernel
theorem test_last_share_frees_the_buffer :
    let s := run (.bufferRequest [ask]) pooled
    bufAt (run (.bufferReturn 0) s) 0 = none ∧ (run (.bufferReturn 0) s).bm.decided = [] ∧
    (bufAt (run (.bufferReturn 0) (s.setBuf 0 (some ⟨0, true, 0, 3, false, 2, 1⟩))) 0).map (fun b => b.shares) = some 1 := by
  decide +kernel
theorem test_geometry_write_is_clamped_or_refused : -- HOME 3 becomes 0
    let s := run (.poolGeometryWrite (.fn 0) 1 0x0000000500000003) hosted
    s.rd F.VT_POOL_GEOM.HOME 1 = 0 ∧ s.rd F.VT_POOL_GEOM.COUNT 1 = 5 ∧
    Sparse.get 0 (run (.poolGeometryWrite (.fn 0) 0 0) pooled).cnt.events 321 = 1 := by decide +kernel
theorem test_assay_visit_and_pass :
    let s := run (.bufferRequest [ask]) pooled
    let t := run (.assayVisit 0) s
    s.on F.VT_POOL_GEOM.EN (handlePool 0) = true ∧ Sparse.get 0 t.bm.bins 0 = 1 ∧
    (run (.assayPassEnd []) t).rd F.VT_ASSAY_STATUS.PASSES 0 = 1 ∧ (run (.assayPassEnd []) t).bm.bins = [] := by decide +kernel
theorem test_frame_age_sweep : -- a packet of age 6 s with the default limit of no limit stays; with a limit of 1 µs it goes
    let s := { pooled with
      clk := { pooled.clk with ns := 6000000000 }, q := { pooled.q with eqs := [(0, [⟨pkt0, 0, 0, 0⟩])] } }
    eqOf (run (.frameAgeSweep (.eq 0)) (s.wr F.VT_EQ_AGE.LIMIT_US 0 1)) 0 = [] ∧
    tooOld (s.wr F.VT_EQ_AGE.LIMIT_US 0 1) (.eq 0) ⟨pkt0, 0, 0, 0⟩ = true := by decide +kernel

/-- A packet for destination `d` of this module, class `tc`. -/
def pktTo (d tc : Nat) : Pkt := ⟨tkPut (tkPut 0 0 0 16 d) 2 0 3 tc, [1, 2, 3, 4]⟩

/-- The packet `p` at the head of the die link, its buffer decided. -/
def atVarton (p : Pkt) (h : Option Nat) : State :=
  let s := run (.bufferRequest [⟨0, Tk.owner p.ticket, 4, 0, 0⟩]) pooled
  { s with
    hn := { s.hn with dieLink := [p] }
    bm := { s.bm with decided := [⟨0, Tk.owner p.ticket, 4, h⟩] } }

theorem test_ticket_fields : Tk.dest (pktTo 5 3).ticket = 5 ∧ Tk.tc (pktTo 5 3).ticket = 3 ∧ Tk.mirror pkt0.ticket = false := by
  decide +kernel
theorem test_varton_ingress_enqueues :
    let s := run (.vartonIngress (.dieLink 0)) (atVarton (pktTo 5 3) (some 0))
    (voqOf s 43).length = 1 ∧ s.hn.dieLink = [] ∧ reservedDest s 5 = false := by decide +kernel
theorem test_varton_ingress_discards :
    (voqOf (run (.vartonIngress (.dieLink 0)) (atVarton (pktTo 170 3) (some 0))) (8 * 170 + 3)).length = 0 ∧
    Sparse.get 0 (run (.vartonIngress (.dieLink 0)) (atVarton (pktTo 170 3) (some 0))).cnt.events 1236 = 1 ∧
    (voqOf (run (.vartonIngress (.dieLink 0)) (atVarton (pktTo 5 3) none)) 43).length = 0 := by decide +kernel
theorem test_shed_packet_gives_its_buffer_back :
    let s := atVarton (pktTo 5 3) (some 0)
    let t := { s with q := { s.q with adm := { s.q.adm with shedding := true, quota := List.replicate 8 0 } } }
    bufAt (run (.vartonIngress (.dieLink 0)) t) 0 = none ∧ Sparse.get 0 (run (.vartonIngress (.dieLink 0)) t).cnt.events 452 = 1 := by
  decide +kernel
theorem test_tail_drop_hypotheses : -- a queue whose profile takes nothing
    let s := ((atVarton (pktTo 5 3) (some 0)).wr F.VT_TPROF.G_MAX 0 0).wr F.VT_TPROF.Y_MAX 0 0
    fits s (.voq 43) (pktTo 5 3) = false ∧ Sparse.get 0 (run (.vartonIngress (.dieLink 0)) s).cnt.events 451 = 1 := by
  decide +kernel
theorem test_queue_epoch :
    (run .queueEpochEnd (hosted.wr F.VT_QADM_CTRL.QSHED_ON 0 0)).q.adm.shedding = true ∧
    (run .queueEpochEnd { hosted with q := { hosted.q with adm := { hosted.q.adm with shedding := true, calm := 15 } } }).q.adm.shedding =
      false := by decide +kernel
theorem test_meter_window :
    let s := run (.meterWriteFill (.fn 0) 0 9) ((hosted.wr F.VT_MTR_WIN.DATA0 0 1).wr F.VT_MTR_WIN.DATA1 0 0)
    s.rd F.VT_MTR_WIN.INDEX 0 = 9 ∧ (meterAt s 9).c = (meterAt s 9).cbs := by decide +kernel

/-- Egress queue 0 holds a packet beneath port `d`. -/
def queued (d : Nat) : State :=
  let s := run (.schedElementWrite (.fn 0) (.port d) 0x8000000000000000) pooled
  let s := run (.schedElementWrite (.fn 0) (.eq 0) (BitVec.ofNat 64 (2 ^ 63 + d * 2 ^ 48 + 1500))) s
  { s with q := { s.q with eqs := [(0, [⟨pkt0, 0, 0, 0⟩])] } }

theorem test_port_scheduler_sends_its_packet :
    let s := run (.schedulerDecision (.port 2)) (queued 2)
    (match (choosePort (queued 2) 2).2 with
      | .head path x => decide (pathQueue path = some (.eq 0)) && (readBuf (queued 2) x.handle x.pkt).2
      | _ => false) = true ∧
    s.hn.egressWait.length = 1 ∧ eqOf s 0 = [] := by decide +kernel
theorem test_voq_scheduler_makes_cells :
    let s := run (.vartonIngress (.dieLink 0)) (atVarton (pktTo 5 3) (some 0))
    let t := run (.schedulerDecision .voq) s
    t.fb.xbar.length = 1 ∧ (voqOf t 43).length = 0 ∧ t.q.adm.sent = 4 ∧
    eligible accepts holdsGrant 6 hosted .root = false := by decide +kernel
theorem test_punt_delivery :
    let s := ((((queued 192).wr F.SY_PUNT_BASE.ENABLE 0 1).wr F.SY_PUNT_PTRS.TAIL 0 1).wr F.SY_PUNT_BASE.BASE 0 1).wr
      F.SY_PUNT_BASE.LOG2_ENTRIES 0 4
    let t := run (.puntDelivery 0) s
    puntRoom s 0 = true ∧ t.rd F.SY_PUNT_PTRS.HEAD 0 = 1 ∧ hostBytes t 128 4 = pkt0.data := by decide +kernel
theorem test_wheel_releases_a_due_entry :
    let s := { hosted with q := { hosted.q with shapers := [(4, ⟨0, some 7⟩)] } }
    nextBoundary s = some 7 ∧ (shaperAt (run .wheelRelease s) 4).wheel = none := by decide +kernel
theorem test_shaper_write :
    (run (.shaperWrite (.fn 0) 4 0) hosted).rd F.VT_SHAPER.RATE 4 = 1 := by decide +kernel
theorem test_destination_drains_and_returns :
    let s := run (.destinationPowerDown 2) (queued 2)
    let t := run (.drainEnd 2) s
    powerOf s 2 = 1 ∧ powerOf t 2 = 2 ∧ eqOf t 0 = [] ∧ powerOf (run (.destinationPowerUp 2) t) 2 = 0 ∧
    powerOf (run (.drainEnd 2) (run (.destinationPowerUp 2) s)) 2 = 0 := by decide +kernel

/-! ### The fabric and the twin -/

/-- Lane 0 is UP, and a coat is in force. -/
def linked : State :=
  (((staged.wr F.FB_MODE.MODE_EFF 0 0).wr F.FB_LINK.EN 0 1).wr F.FB_LINK.STATE 0 2).wr F.FB_LINK.LEVEL_EFF 0 3

/-- The control messages that wait for lane 0. -/
def said (s : State) : List (Nat × Word) := (laneTx s 0).control

/-- The one cell of a packet from module 0 with sequence number `n`. -/
def cell (n : Nat) : Cell := ((mkCells (pktTo 5 3) false 5 0 0 n).head?).getD ⟨0, []⟩

/-- A cell of the middle of a packet, which reassembly discards where none is in progress. -/
def middle (n : Nat) : Cell := ⟨mkHeader 3 3 0 5 0 n 4 4, [1, 2, 3, 4]⟩

theorem test_cell_discards :
    laneUp linked 0 = true ∧ Hd.type 0 = 0 ∧ Hd.type (cell 0).hdr ≠ 0 ∧ headerGood (cell 0).hdr = true ∧
    headerGood ((cell 0).hdr ^^^ 0x10) = false ∧
    Sparse.get 0 (run (.cellReceive 0 ((cell 0).hdr ^^^ 0x10) []) linked).cnt.events 576 = 1 ∧
    Sparse.get 0 (run (.cellReceive 0 (cell 0).hdr []) (linked.wr F.SY_COAT_STATUS.GENERATION 0 0)).cnt.events 1155 = 1 := by
  decide +kernel
theorem test_reorder_of_a_stream : -- cell 1 is stored, cell 0 in order, cell 5 of a stream at 9 is late
    let at_ := fun (e n : Nat) => { linked with fb := { linked.fb with xbar := [middle n], rx := [(0, ⟨e, []⟩)] } }
    (rxAt (run (.cellReceive 48 0 []) (at_ 0 1)) 0).stored.length = 1 ∧
    (rxAt (run (.cellReceive 48 0 []) (at_ 0 0)) 0).expect = 1 ∧
    Sparse.get 0 (run (.cellReceive 48 0 []) (at_ 9 5)).cnt.events 579 = 1 := by decide +kernel
theorem test_window_end_moves_past_the_gap :
    let s := { linked with fb := { linked.fb with rx := [(0, ⟨0, [⟨middle 3, 0, false⟩]⟩)] } }
    (rxAt (run (.reorderWindowExpiry 0 false) s) 0).expect = 4 ∧
    Sparse.get 0 (run (.reorderWindowExpiry 0 false) s).cnt.events 580 = 3 := by decide +kernel
theorem test_lane_comes_up_and_leaves : -- a HELLO of module 1 that offers level 3 in mode 2
    let s := (hosted.wr F.FB_LINK.EN 3 1).wr F.FB_LINK.STATE 3 1
    laneState (run (.hello 3 0x0014000000000010) s) 3 = 2 ∧ (run (.hello 3 0x0014000000000010) s).rd F.FB_LINK.LEVEL_EFF 3 = 3 ∧
    laneState (run (.hello 3 0) s) 3 = 3 ∧ (laneTx (run (.helloTimer 3) s) 3).control.length = 1 ∧
    (run (.helloTimer 3) s).out = [] ∧ (transmit (run (.helloTimer 3) s)).out.length = 1 ∧
    laneState (run (.laneDown 0) linked) 0 = 1 := by decide +kernel
theorem test_xoff_and_xon :
    accepts (run (.xoff 5) linked) 5 = false ∧ Sparse.get false (run (.xon 5) (run (.xoff 5) linked)).fb.xoffHeard 5 = false := by
  decide +kernel

/-- The arbiter of local destination 5. -/
def arbiter (a : Arb) (s : State) : State := { s with fb := { s.fb with arbs := [(5, a)] } }

theorem test_request_then_grant : -- modules 3 and 9 ask; the pointer stands at 4
    let s := run (.request 3 5 2) (run (.request 9 5 2) (arbiter { Arb.init with ptr := 4 } linked))
    let t := run (.grantArbitration 5) s
    powerOf linked 5 = 0 ∧ myId linked = 0 ∧ (arbAt s 5).waiting = [(9, 2), (3, 2)] ∧ (arbAt t 5).waiting = [(3, 2)] ∧
    (arbAt t 5).ptr = 10 ∧ (arbAt t 5).g = 2 ∧ said t = [(9, controlMsg 2 9 5 0 0 0)] := by decide +kernel
theorem test_grant_waits_for_room :
    let s := arbiter { Arb.init with g := linked.rd F.FB_EXPRESS.EXP_CELLS 0, waiting := [(9, 1)] } linked
    0 < (arbAt s 5).g ∧ (arbAt (run (.grantArbitration 5) s) 5).waiting = [(9, 1)] := by decide +kernel
theorem test_destination_that_is_not_on_grants_at_once :
    (said (run (.request 3 5 2) (linked.wr F.VT_PORT.POWER 5 1))).length = 1 := by decide +kernel
theorem test_grant_and_cancel :
    let s := { linked with fb := { linked.fb with reqs := [(1029, .requested)] }, q := { linked.q with voqs := [(8239, [⟨pkt0, 0, 0, 0⟩])] } }
    holdsGrant (run (.grant 1029 7) s) 1029 = true ∧ (said (run (.grant 2048 7) s)).length = 1 ∧
    (arbAt (run (.cancel 3 5 7) (arbiter { Arb.init with g := 2, tokens := [⟨7, 3, 2, 0, false⟩] } linked)) 5).g = 0 ∧
    Sparse.get 0 (run (.grantExpiry 5 7) (arbiter { Arb.init with g := 2, tokens := [⟨7, 3, 2, 0, false⟩] } linked)).cnt.events 583 = 1 := by
  decide +kernel
theorem test_old_residue_is_dropped :
    let s := { linked with clk := { linked.clk with ns := 1000000000000 }, fb := { linked.fb with retryTx := [⟨0, ⟨pkt0, 0, 0, 0⟩, [1, 2], 0⟩] } }
    (run .retryVisit s).fb.retryTx = [] ∧ Sparse.get 0 (run .retryVisit s).cnt.events 584 = 2 := by decide +kernel

/-- Twin operation is enabled with lane 32 UP, in state `st`, as lead or not, the link up or not. -/
def twin (st : Nat) (lead link : Bool) : State :=
  let s := ((hosted.wr F.FB_MODE.MODE_EFF 0 3).wr F.FB_LINK.STATE 32 2).wr F.TN_CTRL.EN 0 1
  ((s.wr F.TN_STATUS.STATE 0 st).wr F.TN_STATUS.ROLE 0 (flag lead)).wr F.TN_STATUS.LINK 0 (flag link)

theorem test_twin_link_up_chooses_the_lead : -- the greater epoch leads
    let p := fun (e : Nat) => (⟨9, true, e, false, true⟩ : TwinPeer)
    let s := (twin 1 true false).wr F.TN_STATUS.EPOCH 0 5
    twinLanes s = [32] ∧ modeEff s = 3 ∧ tnLead (run (.twinLinkUp (p 4)) s) = true ∧ tnLead (run (.twinLinkUp (p 6)) s) = false ∧
    (run (.twinLinkUp (p 6)) s).rd F.TN_STATUS.EPOCH 0 = 6 := by decide +kernel
theorem test_take_yield_anneal :
    tnLead (run (.take (.fn 0)) (twin 5 false true)) = true ∧ (run (.take (.fn 0)) (twin 5 false true)).rd F.TN_STATUS.EPOCH 0 = 1 ∧
    tnLead (run (.take (.fn 0)) (twin 2 false false)) = true ∧ tnLead (run (.yield (.fn 0)) (twin 5 true true)) = false ∧
    tnState (run (.anneal (.fn 0)) (twin 4 false true)) = 2 := by decide +kernel
theorem test_twin_writes_reach :
    ∀ r ∈ [Reg.TN_CTRL, .TN_STATUS, .TN_STREAM_WIN], Reaches (twin 5 false true) (.fn 0) r 0 0 := by
  unfold Reaches RegOk; decide +kernel
theorem test_twin_enable :
    let s := (twin 0 false false).wr F.TN_CTRL.EN 0 0
    tnState (run (.twinEnable (.fn 0) 1) s) = 2 ∧ tnState (run (.twinEnable (.fn 0) 0) (twin 5 true true)) = 0 := by
  decide +kernel
theorem test_form_timeout_and_lead_loss :
    let s := { twin 2 false false with tn := { (twin 2 false false).tn with formDue := some 7 } }
    tnState (run .formTimeout (s.wr F.TN_CTRL.AUTO_TAKE 0 1)) = 1 ∧ (run .formTimeout s).tn.formDue = none ∧
    tnState (run .leadLoss ((twin 5 false true).wr F.TN_CTRL.AUTO_TAKE 0 1)) = 1 ∧
    tnState (run .leadLoss (((twin 5 false true).wr F.TN_CTRL.AUTO_TAKE 0 1).wr F.TN_STATUS.SUSPECT 0 1)) = 2 := by decide +kernel
theorem test_heartbeats :
    (run .heartbeat (twin 5 true true)).tn.tx = [.heartbeat 32 0 false] ∧
    (transmit (run .heartbeat (twin 5 true true))).out = [.twin 32 (.heartbeat 32 0 false)] ∧
    (run (.heartbeatReceived 7 true) (twin 5 false true)).rd F.TN_STATUS.EPOCH 0 = 7 ∧
    tnLead (run (.heartbeatReceived 7 false) (twin 5 true true)) = false := by decide +kernel
theorem test_digests :
    let x : Digest := ⟨true, 4, 9, 1, 0⟩
    let s := { twin 5 true true with tn := { (twin 5 true true).tn with digests := [x] } }
    Sparse.get 0 (run (.digestRecord 4 9 1) s).cnt.events 716 = 1 ∧ Sparse.get 0 (run (.digestRecord 4 9 2) s).cnt.events 717 = 1 ∧
    (run (.digestRecord 4 8 1) s).tn.digests.length = 2 ∧ Sparse.get 0 (run (.compareTimeout true 4 9) s).cnt.events 718 = 1 := by
  decide +kernel
theorem test_anneal_and_pairing : -- the coats agree: both modules have the empty coat's digest
    let s := twin 2 false true
    let d := BitVec.ofNat 256 (coatDigest s)
    tnState (run (.annealMatch 1 1 d) s) = 3 ∧ Sparse.get 0 (run (.annealMatch 1 1 (d ^^^ 1)) s).cnt.events 715 = 1 ∧
    (run (.annealMatch 1 1 d) (twin 2 true true)).tn.sending = true ∧
    tnState (run .annealCopyComplete (twin 3 false true)) = 4 ∧ tnState (run .paired (twin 4 false true)) = 5 ∧
    (run .paired (twin 4 false true)).clk.ns = 100000000 := by decide +kernel
theorem test_anneal_transfers :
    (streamAt (run (.annealTransfer (.stream 1 6 2 3 true [true])) (twin 3 false true)) 6).nextSeq = 2 ∧
    (meterAt (run (.annealTransfer (.bucket 6 11)) (twin 3 false true)) 6).c = 11 ∧
    (run (.annealTransfer (.entry ⟨1, .write, 5, key8, 7, 0⟩))
      { twin 3 false true with tn := { (twin 3 false true).tn with applied := [(5, fitKey (twin 3 false true) 5 key8, 2)] } }).lk.slots = [] := by
  decide +kernel
theorem test_suspect_and_mismatch :
    let s := twin 5 true true
    (run .coatMismatchTimeout { s with tn := { s.tn with mismatch := some 5 } }).on F.TN_STATUS.SUSPECT 0 = true ∧
    (run (.suspectClear false) (s.wr F.TN_STATUS.SUSPECT 0 1)).on F.TN_STATUS.SUSPECT 0 = false ∧
    (run (.twinRecoatDigest (BitVec.ofNat 256 (coatDigest s) ^^^ 1)) s).tn.mismatch = some 0 := by decide +kernel

/-- Stream 6 is enabled, recovers, and holds one packet. -/
def held : State :=
  let t := { streamAt hosted 6 with desc := 0x0000000A0000000B, takeAny := false, held := [⟨4, ⟨pkt0, 0, 0, 0⟩, 0⟩] }
  hosted.setStream 6 t

theorem test_hold_expiry_releases :
    (streamAt (run (.holdExpiry 6) held) 6).held = [] ∧ Sparse.get 0 (run (.holdExpiry 6) held).cnt.events 712 = 1 := by
  decide +kernel
theorem test_recovery_reset :
    (streamAt held 6).en = true ∧ (streamAt held 6).func ≠ 0 ∧ (streamAt held 6).takeAny = false ∧
    (streamAt (run (.recoveryReset 6) held) 6).takeAny = true := by decide +kernel
theorem test_stream_window :
    (run (.streamRead (.fn 0) 6) held).rd F.TN_STREAM_WIN.INDEX 0 = 6 ∧
    (streamAt (run (.streamReset (.fn 0) 6) held) 6).held = [] ∧
    (streamAt (run (.streamWrite (.fn 0) 6) held) 6).held = [] := by decide +kernel

/-! ### Fresco -/

/-- Fresco has no target, and a mirror copy of 4 bytes waits beneath port scheduler 160. -/
def capturing : State :=
  let s := (queued 160).wr F.FR_STATUS.STATE 0 4
  { s with q := { s.q with eqs := [(0, [⟨⟨tkPut 0 3 1 1 1, pkt0.data⟩, 0, 0, 0⟩])] } }

def record : CapRec := ⟨List.replicate 40 0, 0, 0⟩

/-- An open segment of `n` used bytes with one record. -/
def segment (n : Nat) : Seg := { newSeg capturing with records := [record], used := n }

def opening (g : Seg) : State := { capturing with fr := { capturing.fr with opened := some g } }

theorem test_record_into_a_new_segment : -- 32 bytes of header, 4 of the copy, padded to 40
    (run .frescoRecord capturing).fr.opened.map (fun g => (g.used, g.records.length)) = some (40, 1) ∧
    (match (choosePort capturing 160).2 with
      | .head _ x => (readBuf capturing x.handle x.pkt).2 && Tk.mirror x.pkt.ticket
      | _ => false) = true ∧ stageRoom capturing 40 = true ∧ capturing.fr.opened = none := by decide +kernel
theorem test_record_into_the_open_segment :
    (run .frescoRecord (opening (segment 40))).fr.opened.map (fun g => (g.used, g.records.length)) = some (80, 2) ∧
    (segment (segArea - 40)).used + 40 ≤ segArea ∧ segArea < (segment (segArea - 39)).used + 40 ∧
    (segment 40).records ≠ [] ∧ capturing.clk.diesOn = true := by decide +kernel
theorem test_flush_and_new_ring :
    let s := capturing
    (run (.frescoFlush (.fn 0)) s).fr.opened = none ∧ (run (.newRing (.fn 0)) s).fr.nextSeq = 1 ∧
    (run (.newRing (.fn 0)) s).fr.sram.map (·.ringId) = some (lifeSeconds s) ∧ s.on F.FR_CTRL.EN 0 = false := by decide +kernel
theorem test_capture_writes_reach :
    ∀ x ∈ [(Reg.FR_CTRL, 0), (.FR_TARGET, 0), (.FR_TARGET, 71), (.FR_READ, 0)], Reaches capturing (.fn 0) x.1 x.2 0 := by
  unfold Reaches RegOk; decide +kernel
theorem test_target_enable : -- target 8 is RoCE; W is 0, below RETIRE_W
    let s := run (.targetEnable (.fn 0) 8 2) capturing
    s.on F.FR_TARGET.EN 8 = true ∧ s.rd F.FR_TARGET.KIND 8 = 2 ∧ tgState s 8 = 1 ∧ frState s = 2 ∧
    privOf capturing (.fn 0) = .owner ∧ targetOverlaps capturing 0 = false ∧
    capturing.rd F.FR_TARGET.FIRST_SLOT 0 + capturing.rd F.FR_TARGET.SLOTS 0 ≤ 2 ^ 30 ∧ capturing.fr.sram = none := by
  decide +kernel
theorem test_target_found_in_the_record :
    let s := (capturing.wr F.FR_TARGET.SLOTS 8 9).wr F.FR_TARGET.NSID 8 1
    let s := { s with fr := { s.fr with sram := some ⟨s.fr.ringId, 0, 0, 0, 0, [(8, ⟨s.fr.ringId, 2, 1, 0, 9, 5, 8388608⟩)], false⟩ } }
    (run (.targetEnable (.fn 0) 8 0x100000002) s).rd F.FR_TARGET.NEXT 8 = 5 ∧ (run (.targetEnable (.fn 0) 8 0x100000002) s).rd F.FR_TARGET.BYTES 8 = 8388608 := by
  decide +kernel
theorem test_seal_and_release :
    let s := capturing.wr F.FR_CTRL.HOLDUP_US 0 2000
    let t := run .sealFresco s
    holdup (capturing.wr F.FR_CTRL.HOLDUP_US 0 0) = false ∧ frState (run .sealFresco (capturing.wr F.FR_CTRL.HOLDUP_US 0 0)) = 3 ∧
    holdup s = true ∧ frState t = 3 ∧ t.fr.sealAt = some 0 ∧
    (run .holdupEnd t).fr.flash = some (captureNow t true) ∧ frState (run .sealRelease t) = 4 := by decide +kernel

/-- One segment in flight to target 0, at `stage`. -/
def writing (stage : SegStage) : State :=
  let s := (((capturing.wr F.FR_TARGET.EN 0 1).wr F.FR_TARGET.KIND 0 1).wr F.FR_TARGET.STATE 0 1).wr F.FR_TARGET.SLOTS 0 9
  { s with fr := { s.fr with segs := [⟨{ segment 40 with seq := 1 }, 0, 0, stage⟩] } }

def stages (s : State) : List SegStage := s.fr.segs.map (·.stage)

/-- The stage with the writes of `ps` open, each sent at 0; `again` says that they are retries. -/
def opens (ps : List NvmePart) (again : Bool) : SegStage := .nvme (ps.map (fun p => ⟨p, again, 0⟩))

/-- The eight writes of a record area. -/
def areas : List NvmePart := (List.range 8).map .area

theorem test_zeros_then_record_area_then_header :
    stages (run (.nvmeCompletion 0 1 .zero true) (writing (opens [.zero] false))) = [opens areas false] ∧
    (run (.nvmeCompletion 0 1 .zero true) (writing (opens [.zero] false))).out.length = 8 ∧
    stages (run (.nvmeCompletion 0 1 (.area 2) true) (writing (opens [.area 2, .area 7] false))) = [opens [.area 7] false] ∧
    stages (run (.nvmeCompletion 0 1 (.area 7) true) (writing (opens [.area 7] false))) = [opens [.header] false] ∧
    stages (run (.nvmeCompletion 0 1 (.area 2) false) (writing (opens [.area 2] false))) = [opens [.area 2] true] ∧
    tgState (run (.nvmeCompletion 0 1 (.area 2) false) (writing (opens [.area 2] true))) 0 = 2 := by decide +kernel
theorem test_writes_cover_the_slot (s : State) (x : SealedSeg) : -- blocks of 512 bytes or 4 KiB; the last area ends at 8 MiB
    (nvmeWrite s x (.area 2)).blocks * blockSize x.target = 1048576 ∧
    (nvmeWrite s x (.area 7)).blocks * blockSize x.target = 1048576 - 4096 ∧ (nvmeWrite s x .header).opcode = 1 ∧
    (nvmeWrite s x .header).fua = true := by
  have h : blockSize x.target = 4096 ∨ blockSize x.target = 512 := by unfold blockSize; split <;> simp
  rcases h with h | h <;> simp [nvmeWrite, h, segArea]
theorem test_header_makes_durable :
    let s := run (.nvmeCompletion 0 1 .header true) (writing (opens [.header] false))
    s.fr.segs = [] ∧ s.rd F.FR_DURABLE.SEQ 0 = 1 ∧ s.rd F.FR_TARGET.BYTES 0 = 8388608 ∧
    bufferBad (writing (opens [.header] false)) 0 = false := by decide +kernel
theorem test_command_timeout :
    stages (run (.nvmeTimeout 0 1 .header) (writing (opens [.header] false))) = [.nvme [⟨.header, true, 2000000000⟩]] ∧
    tgState (run (.nvmeTimeout 0 1 .header) (writing (opens [.header] true))) 0 = 2 ∧
    tgState (run (.nvmeRemoval 0) (writing (opens [.header] true))) 0 = 2 := by decide +kernel
theorem test_acknowledged_packets :
    stages (run (.roceAck 0 99 .ack) (writing (.roce 0 10))) = [.roce 0 100] ∧
    stages (run (.roceAck 0 3 .ack) (writing (.roce 0 10))) = [.roce 0 10] ∧
    (run (.roceAck 0 2048 .ack) (writing (.roce 0 10))).fr.segs = [] ∧
    tgState (run (.roceAckTimeout 0) ((writing (.roce 0 10)).setRoce 0 ⟨0, 7, 0⟩)) 0 = 2 := by decide +kernel
theorem test_wear_retires_the_target : -- 100% used is 1023 of 1024; the retirement is a life event
    let t := run (.wearPoll 0 100) (writing .waiting)
    t.rd F.FR_TARGET.W 0 = 1023 ∧ tgState t 0 = 3 ∧ t.rd F.LT_LIFE_HEAD.HEAD 0 = 1 := by decide +kernel
theorem test_read_back : -- a segment not durable reads as 0; one that was never sealed, 1; a target that fails, 2
    let g := { segment 40 with seq := 1 }
    let s := (writing .done).wr F.FR_READ.SEQ_FIRST 0 7
    let t := (writing .done).wr F.FR_TARGET.EN 3 1
    let t := { t with fr := { t.fr with segs := [], stored := [(pairKey 3 4, some g)], directory := [(1, some (dirEntry g 4 3 true))] } }
    let t := t.wr F.FR_READ.SEQ_FIRST 0 1
    findSeg s [] 1 = (0, some g) ∧ (run (.segmentRead (.fn 0) []) s).rd F.FR_READ.RESULT 0 = 1 ∧
    (run (.verify (.fn 0) []) s).rd F.FR_READ.RESULT 0 = 1 ∧
    findSeg t [] 1 = (0, some g) ∧ (run (.segmentRead (.fn 0) [3]) t).rd F.FR_READ.RESULT 0 = 2 := by decide +kernel
theorem test_directory_is_rebuilt : -- from the headers that stand on the targets
    let g := { segment 40 with seq := 5 }
    let s := (writing .done).wr F.FR_TARGET.EN 3 1
    let t := run .directoryRebuild { s with fr := { s.fr with stored := [(pairKey 3 4, some g)] } }
    t.on F.FR_STATUS.DIR_READY 0 = true ∧ t.fr.directory = [(5, some (dirEntry g 4 3 true))] := by decide +kernel

/-! ### Trowel -/

/-- Channel 5 in state `st` of R425. -/
def chan (st : Nat) (ch : TwChan) : State := (hosted.setTw 5 ch).setTwState 5 st

def moving : Move := ⟨0x800, 0x900, 4, true, 256, 0, false⟩

theorem test_channel_commands :
    twState (run (.channelStart (.fn 0) 5) (chan 0 TwChan.init)) 5 = 2 ∧
    twState (run (.channelStart (.fn 0) 5) ((chan 0 TwChan.init).wr F.TW_CH_CTRL.START_EV 5 2)) 5 = 1 ∧
    twState (run (.channelStart (.fn 0) 5) (chan 4 TwChan.init)) 5 = 4 ∧
    twState (run (.channelReset (.fn 0) 5) (chan 6 TwChan.init)) 5 = 0 ∧
    twState (run (.channelReset (.fn 0) 5) (chan 2 TwChan.init)) 5 = 2 := by decide +kernel
theorem test_twin_owns_the_last_channels :
    twOwned (hosted.wr F.TN_CTRL.EN 0 1) 126 = true ∧ twOwned (hosted.wr F.TN_CTRL.EN 0 1) 125 = false ∧
    twState (run (.channelStart (.fn 0) 126) (hosted.wr F.TN_CTRL.EN 0 1)) 126 = 0 := by decide +kernel
theorem test_kill_hypotheses :
    twOwned hosted 5 = false ∧ (∀ m ∈ (twChan (chan 2 { TwChan.init with moves := [moving] }) 5).moves, sysSpace m.dst < 4) ∧
    hosted.rd F.TW_CH_CTRL.CMD 5 = 0 ∧ hosted.rd F.TW_CH_CTRL.KILL 5 = 0 := by decide +kernel
theorem test_doorbells :
    twState (run (.doorbellRing 0 5) (chan 4 TwChan.init)) 5 = 2 ∧ (run (.doorbellRing 0 5) (chan 3 TwChan.init)).rd F.TW_CH_STATUS.DB_PEND 5 = 1 ∧
    twState (run (.doorbellStart 0 5) (chan 0 TwChan.init)) 5 = 2 ∧
    (run (.doorbellRing 1 5) (chan 4 TwChan.init)).rd F.SY_REFUSED_ACCESS.COUNT 0 = 1 ∧
    twState (run (.doorbellRing 1 5) ((chan 4 TwChan.init).wr F.TW_CH_CTRL.REALM 5 1)) 5 = 2 := by decide +kernel
theorem test_trowel_writes_reach :
    (∀ x ∈ [(Reg.TW_CH_CTRL, 0), (.TW_CH_CTRL, 127), (.TW_DOORBELL, 0), (.TW_TIMER, 0), (.TW_TIMER, 15)],
      Reaches hosted (.fn 0) x.1 x.2 0) ∧ Reaches hosted (.fn 1) .TW_DOORBELL 0 0 := by
  unfold Reaches RegOk; decide +kernel
theorem test_timer_write_and_tick : -- 100 µs; the channel that waits goes on
    let s := run (.timerWrite (.fn 0) 7 0x1000064) (chan 3 { TwChan.init with pc := 16, wait := some (.timer 7) })
    let t := run (.timerTick 7) s
    s.rd F.TW_TIMER.PERIOD_US 7 = 100 ∧ s.on F.TW_TIMER.EN 7 = true ∧ t.clk.ns = 100000 ∧ t.rd F.TW_TIMER.TICKS 7 = 1 ∧
    twState t 5 = 2 ∧ (twChan t 5).pc = 24 := by decide +kernel

/-- Channel 5 runs with the word `w` at address 256, and two words after it. -/
def program (w : Nat) (ch : TwChan) : State :=
  let s := chan 2 { ch with pc := 256 }
  { s with host := { s.host with mem := hostStore s.host.mem 256 (leBytes 8 w ++ leBytes 8 0x800 ++ leBytes 8 0x900) } }

theorem test_fetch :
    twAccessFault (program 7 TwChan.init) 5 0 256 8 = none ∧ sysWaits (program 7 TwChan.init) 256 = false ∧
    (twGet (program 7 TwChan.init) 5 0 256 8).1 = leBytes 8 7 ∧ twAccessFault hosted 5 6 0 8 = some 2 ∧
    twState (run (.twEnd 5 false) (chan 2 { TwChan.init with pc := 6 * 2 ^ 56 })) 5 = 5 ∧
    twState (run (.twLink 5 false) (program (7 * 2 ^ 60) TwChan.init)) 5 = 5 := by decide +kernel
theorem test_move_begins : -- 4 bytes, counted; with FENCE it waits for the earlier move
    let w := 2 ^ 60 + 2 ^ 59 + 3
    (twChan (run (.twMove 5 false) (program w TwChan.init)) 5).moves = [moving] ∧
    (twChan (run (.twMove 5 false) (program w TwChan.init)) 5).pc = 280 ∧
    (twChan (run (.twMove 5 false) (program (w + 2 ^ 58) { TwChan.init with moves := [moving] })) 5).pc = 256 ∧
    (run (.twMove 5 false) ((program w TwChan.init).wr F.TW_CH_CTRL.REALM 5 1)).rd F.TW_CH_STATUS.FAULT 5 = 5 := by decide +kernel
theorem test_move_strides : -- iteration 2, source stride 64 bytes
    let s := (program (2 ^ 60 + 2 ^ 44 + 3) TwChan.init).wr F.TW_CH_STATUS.LOOP_I 5 2
    (twChan (run (.twMove 5 false) s) 5).moves.map (fun m => (m.src, m.dst)) = [(0x880, 0x900)] := by decide +kernel
theorem test_loop :
    let w := fun (n : Nat) => 2 * 2 ^ 60 + 3 * 2 ^ 32 + n
    let opened := { TwChan.init with openLoop := some 256 }
    (twChan (run (.twLoop 5 false) (program (w 1) TwChan.init)) 5).pc = 264 ∧ (twChan (run (.twLoop 5 false) (program (w 2) TwChan.init)) 5).pc = 232 ∧
    (twChan (run (.twLoop 5 false) ((program (w 2) opened).wr F.TW_CH_STATUS.LOOP_I 5 1)) 5).pc = 264 ∧
    (twChan (run (.twLoop 5 false) ((program (w 3) opened).wr F.TW_CH_STATUS.LOOP_I 5 1)) 5).pc = 232 ∧
    (run (.twLoop 5 false) (program (w 2) { TwChan.init with openLoop := some 8 })).rd F.TW_CH_STATUS.FAULT 5 = 4 := by decide +kernel
theorem test_wait :
    let signal := 3 * 2 ^ 60 + 256 + 9
    (twChan (run (.twWait 5 false) (program signal { TwChan.init with signals := 2 ^ 9 })) 5).pc = 264 ∧
    twState (run (.twWait 5 false) (program signal TwChan.init)) 5 = 3 ∧ twState (run (.twWait 5 false) (program (3 * 2 ^ 60 + 15) TwChan.init)) 5 = 3 ∧
    twState (run (.twWait 5 false) (program (3 * 2 ^ 60 + 16) TwChan.init)) 5 = 5 := by decide +kernel
theorem test_signal_link_end :
    let waiting := (program (4 * 2 ^ 60 + 6) TwChan.init).setTw 6 { TwChan.init with wait := some (.signal 5) }
    twState (run (.twSignal 5 false) (waiting.setTwState 6 3)) 6 = 2 ∧
    (twChan (run (.twSignal 5 false) (program (4 * 2 ^ 60 + 6) TwChan.init)) 6).signals = 2 ^ 5 ∧
    (twChan (run (.twLink 5 false) (program (5 * 2 ^ 60 + 2 ^ 56 + 8) TwChan.init)) 5).pc = 2 ^ 56 + 8 ∧
    twState (run (.twEnd 5 false) (program (6 * 2 ^ 60 + 1) TwChan.init)) 5 = 0 ∧ twState (run (.twEnd 5 false) (program (6 * 2 ^ 60) TwChan.init)) 5 = 4 := by
  decide +kernel
theorem test_move_completes :
    let s := program 0 { TwChan.init with moves := [moving] }
    let s := { s with host := { s.host with mem := hostStore s.host.mem 0x800 [1, 2, 3, 4] } }
    let t := run (.moveComplete 5 0 false) (s.wr F.TW_CH_COUNT.REMAIN 5 3)
    hostBytes t 0x900 4 = [1, 2, 3, 4] ∧ t.rd F.TW_CH_COUNT.REMAIN 5 = 2 ∧ (twChan t 5).moves = [] ∧ moveOverlaps moving = false ∧
    (run (.moveComplete 5 0 true) s).rd F.TW_CH_STATUS.FAULT 5 = 5 ∧ s.tw.lost = [] := by decide +kernel
theorem test_xwr :
    let f : FmtA := ⟨0, 1, 2, 0⟩
    let s := fun (a : BitVec 64) => sAt ((steward.setReg 1 a).setReg 2 0x0807060504030201) (encA 0x65 f)
    hostBytes (run (.iXwr st f) (s 0x40)) 0x40 8 = [1, 2, 3, 4, 5, 6, 7, 8] ∧ busMaster live 0 = true ∧
    stackByte (run (.iXwr st f) (s 0x0100000000000040)) 0 0x41 = 2 ∧ inStack live 0 0x40 = true := by decide +kernel

/-! ### The stacks, the ports and the time base -/

/-- Stack 1 is in state `st` of R454. -/
def stack (st : Nat) : State := hosted.wr F.HB_STATUS.STATE 1 st

def reads (ecc : EccResult) : HbmReq := ⟨0, 70, .read ecc⟩
def writes (data : BitVec 256) : HbmReq := ⟨0, 64, .write data⟩

theorem test_requests :
    let s := run (.hbmRequest 1 [] [writes 0x0201]) (stack 3)
    hbState s 1 = 2 ∧ stackByte s 1 65 = 2 ∧ inStack hosted 1 64 = true ∧ stackServes (stack 3) 1 = true ∧
    blockBad (run (.hbmRequest 1 [] [reads .uncorrectable]) s) 1 64 = true ∧
    (run (.hbmRequest 1 [] [reads .corrected]) s).rd F.HB_ERRLOG.ADDR 64 = 64 ∧
    Sparse.get 0 (run (.hbmRequest 1 [] [reads .good]) s).cnt.events 896 = 1 ∧
    (run (.hbmRequest 1 [] [writes 0]) (stack 4)).hb.waiting.length = 1 ∧ stagingByte s 64 = none := by decide +kernel
theorem test_in_order_mode : -- one count until the write completes; port 1 is Fresco's, on stack A alone
    let bank := placeBank (hbmPlace (stack 2) 1 64)
    let row := placeRow (hbmPlace (stack 2) 1 64)
    let s := run (.hbmRequest 1 [] [reads .good, reads .good]) (run (.hbmRequest 1 [] [writes 0]) (stack 2))
    Sparse.get [] s.hb.writes (pairKey 1 bank) = [(row, true)] ∧ Sparse.get 0 s.cnt.events 896 = 1 ∧
    Sparse.get [] (run (.hbmRequest 1 [(bank, row)] []) s).hb.writes (pairKey 1 bank) = [] ∧
    (run (.hbmRequest 1 [] [⟨1, 64, .write 0⟩]) s).hb.writes = s.hb.writes ∧
    stackByte (run (.hbmRequest 1 [] [⟨3, 64, .write 3⟩, ⟨2, 64, .write 2⟩]) (stack 2)) 1 64 = 3 := by decide +kernel
theorem test_idle_scrub_strobe :
    let s := stack 2
    let late := { s with clk := { s.clk with ns := 90000000000000 } }
    hbState (run (.idleSelfRefresh 1) (s.wr F.HB_CTRL.IDLE_SR_EN 1 1)) 1 = 3 ∧ Sparse.get none s.hb.migrating 1 = none ∧
    (Sparse.get PcTrim.zero (run (.strobeTracking 1 3 (some true)) s).hb.trims (pairKey 1 3)).strobe = 1 ∧
    (run (.strobeTracking 1 3 none) s).clk.ns = 100000000 ∧ retiredChannel s 1 = none ∧
    (run (.patrolScrub 1 0 .uncorrectable) s).rd F.HB_ERRLOG.UE 64 = 1 ∧
    Sparse.get 0 (run (.patrolScrub 1 0 .good) late).cnt.events 1090 = 1 := by decide +kernel

/-- Stack 1 is in training, which has begun, with a record of identity 7 at 20 °C. -/
def inTraining : State :=
  { stack 1 with hb := { (stack 1).hb with
    firmware := true
    begun := [(1, true)]
    records := [(1, some ⟨7, 20, [3], [(4, ⟨[], [], 9, 1⟩)], true⟩)]
    repaired := [(pairKey 1 8, some ⟨6, false⟩)] } }

theorem test_training :
    let s := inTraining
    let fast := fun (t : Int) (e : List (Nat × Nat)) => run (.fastTraining 1 7 t e) s
    let full := run (.fullTraining 1 ⟨7, 20, [], [], []⟩) s
    Sparse.get false (run .trainingStart { s with hb := { s.hb with begun := [] } }).hb.begun 1 = true ∧
    hbState (fast 50 []) 1 = 2 ∧ hbState (fast 51 []) 1 = 1 ∧ hbState (fast 50 [(0, 1)]) 1 = 1 ∧
    (fast 50 [(0, 1)]).lt.life.trainings = 1 ∧ Sparse.get [] (fast 50 []).hb.lanes 1 = [3] ∧
    (Sparse.get PcTrim.zero (fast 50 []).hb.trims (pairKey 1 4)).strobe = 9 ∧
    hbState (run (.fullTraining 1 ⟨7, 20, [], [], [(9, 2)]⟩) s) 1 = 5 ∧ hbState full 1 = 2 ∧
    Sparse.get none full.hb.repaired (pairKey 1 8) = some ⟨6, true⟩ := by decide +kernel
theorem test_post_package_repair :
    let s := { stack 2 with hb := { (stack 2).hb with candidates := [(1, 4, 6)] } }
    let t := run (.postPackageRepair 1 4 6) (s.wr F.HB_CTRL.AUTO_REPAIR 1 1)
    t.rd F.HB_STATUS.REPAIRS 1 = 1 ∧ t.hb.candidates = [] := by decide +kernel
theorem test_channel_retires : -- stack 0's yield region is at most 12
    let s := run (.retireGo (.fn 0) 1 3 9) (stack 2)
    let part := run (.migrationComplete 1 1000) s
    let t := run (.migrationComplete 1 5898240) s
    s.rd F.HB_RETIRE.BUSY 1 = 1 ∧ part.rd F.HB_RETIRE.PROGRESS 1 = 1000 ∧ part.rd F.HB_RETIRE.BUSY 1 = 1 ∧
    t.rd F.HB_STATUS.RETIRED 1 = 8 ∧ inStack t 1 (9 * yieldSize) = false ∧
    (run (.retireGo (.fn 0) 0 3 13) hosted).rd F.HB_RETIRE.YIELD 0 = 12 := by decide +kernel
theorem test_granules_move_one_by_one : -- the first two granules of channel 3 outside the yield region
    let s := run (.migrationComplete 1 1) (run (.retireGo (.fn 0) 1 3 9) (stack 2))
    let at_ := fun (n : Nat) => ((List.range 100).filter (fun k => hbmChannel (256 * k) == 3)).getD n 0 * 256
    hbmPlace s 1 (at_ 0) = remapped 3 9 (at_ 0) ∧ hbmPlace s 1 (at_ 1) = at_ 1 ∧ at_ 0 ≠ at_ 1 := by decide +kernel
theorem test_block_writes_reach :
    (∀ x ∈ [(Reg.HB_RETIRE, 0), (.HB_RETIRE, 2), (.PT_SA_WIN, 0), (.PT_FLEXE_GRP, 7), (.PT_TIME_ADJ, 0), (.SY_SVC_CMD, 0), (.LT_RULE, 0),
      (.LT_CHAN, 31)], Reaches hosted (.fn 0) x.1 x.2 0) ∧ Reaches hosted (.fn 0) .LT_RULE 255 1 := by
  unfold Reaches RegOk; decide +kernel

/-- Port 3 is enabled in mode 1 with one lane, and a coat is in force. -/
def ported : State := ((hosted.wr F.PT_PORT.MODE 3 1).wr F.PT_PORT.EN 3 1).wr F.SY_COAT_STATUS.GENERATION 0 1

/-- Addresses, the EtherType and four bytes. -/
def frame (et : List Byte) : List Byte := List.replicate 12 0 ++ et ++ [1, 2, 3, 4]

theorem test_frame_receive :
    let f := frame [0x08, 0x00]
    objServes ported 3 = true ∧ uncontrolled ported 3 f = false ∧ etherType f ≠ 0x88E5 ∧
    (Sparse.get [] (run (.frameReceive 3 f) (ported.wr F.PT_MACSEC.VALIDATE 3 1)).hn.rxQueue 3).length = 1 ∧
    (Sparse.get [] (run (.frameReceive 3 f) ported).hn.rxQueue 3).length = 0 ∧
    uncontrolled ported 3 (frame [0x88, 0x8E]) = true ∧
    Sparse.get 0 (run (.frameReceive 4 f) ported).cnt.events 960 = 1 := by decide +kernel

/-- AES-256 of FIPS 197, appendix C.3, and GCM's test case 13: no data, and key and initialisation vector 0. -/
theorem test_ciphers :
    aesBlock (roundKeys (List.range 32)) ((List.range 16).map (17 * ·)) =
      [0x8E, 0xA2, 0xB7, 0xCA, 0x51, 0x67, 0x45, 0xBF, 0xEA, 0xFC, 0x49, 0x90, 0x4B, 0x49, 0x60, 0x89] ∧
    gcmTag (roundKeys (List.replicate 32 0)) 0 [] [] =
      [0x53, 0x0F, 0x8A, 0xFB, 0xC7, 0x45, 0x36, 0xB9, 0xA9, 0x63, 0xB4, 0xF1, 0xC4, 0xCB, 0x73, 0x8B] := by decide +kernel

/-- An SA in use, with packet number 9. -/
def sa9 : BitVec 512 := BitVec.ofNat 512 (1 + 9 * 2 ^ 64)

/-- Port 3 has one secure channel, whose SA of AN 0 takes packet numbers from 9, and transmits encrypted under one that
stands at 9. -/
def securing : State :=
  let s := (((ported.setSa 224 sa9).setSa 12 sa9).wr F.PT_RXSC.EN 24 1).wr F.PT_MACSEC.VALIDATE 3 2
  (s.wr F.PT_MACSEC.TX_EN 3 1).wr F.PT_MACSEC.CONF 3 1

/-- A protected frame of AN 0 with packet number 9. -/
def secured : List Byte := sealFrame securing 3 ⟨12, 9, true⟩ (frame [0x08, 0x00])

theorem test_protected_frame : -- and the same frame with a bit of its ICV changed
    let t := run (.frameReceive 3 secured) securing
    let bad := secured.take (secured.length - 1) ++ [(secured.getLast?.getD 0) ^^^ 1]
    secured.length = 50 ∧ secTagGood false secured = true ∧ findRxSc securing 3 secured = some 0 ∧ saEn (saAt securing 224) = true ∧
    (Sparse.get [] t.hn.rxQueue 3).map (fun p => p.data) = [frame [0x08, 0x00]] ∧ saPn (saAt t 224) = 10 ∧
    (Sparse.get [] (run (.frameReceive 3 bad) securing).hn.rxQueue 3).length = 0 := by decide +kernel

/-- A frame waits at port 3 with transmit time word `w`. -/
def leaving (w : Nat) (s : State) : State :=
  { s with hn := { s.hn with macQueue := [(3, [⟨tkPut 0 116 0 32 w, frame [0x08, 0x00]⟩])] } }

theorem test_frame_transmit : -- no action, a timestamp, an action that the time base cannot do
    (run (.frameTransmit 3 none) (leaving 0 ported)).out = [.frame 3 (frame [0x08, 0x00]) (2 ^ 63)] ∧
    lineDrive ported 3 = .frames ∧
    Sparse.get [] (run (.frameTransmit 3 none) (leaving 0x70001 ported)).pt.tsQ 3 = [(7, 2 ^ 63)] ∧
    Sparse.get 0 (run (.frameTransmit 3 none) (leaving 2 ported)).cnt.events 963 = 1 := by decide +kernel
theorem test_frame_protection : -- an SA at 9, and one that is exhausted
    let t := run (.frameTransmit 3 none) (leaving 0 securing)
    t.out = [.frame 3 secured (2 ^ 63)] ∧ saPn (saAt t 12) = 10 ∧
    Sparse.get 0 (run (.frameTransmit 3 none) (leaving 0 (securing.setSa 12 1))).cnt.events 962 = 1 := by decide +kernel
theorem test_line_drive : -- electrical idle discards, training waits
    let trains := (leaving 0 ported).wr F.PT_PORT.AN_LT 3 1
    let idle := (leaving 0 ported).wr F.PT_PORT.EN 3 0
    lineDrive trains 3 = .training ∧ (run (.frameTransmit 3 none) trains).hn.macQueue = trains.hn.macQueue ∧
    lineDrive idle 3 = .electricalIdle ∧ (run (.frameTransmit 3 none) idle).hn.macQueue = [] ∧
    Sparse.get 0 (run (.frameTransmit 3 none) idle).cnt.events 961 = 1 := by decide +kernel
theorem test_sa_window :
    let s := run (.saWrite (.fn 0) 1151) (hosted.wrWide F.PT_SA_WIN.DATA 0 (1 + 5 * 2 ^ 64))
    saAt s 1151 = BitVec.ofNat 512 (1 + 5 * 2 ^ 64) ∧ s.rd F.PT_SA_WIN.BUSY 0 = 0 ∧
    windowBusy hosted .PT_SA_WIN 0 = false ∧
    (run (.saRead (.fn 0) 1151) { s with host := hosted.host }).rd F.PT_SA_WIN.INDEX 0 = 1151 := by
  decide +kernel
theorem test_lanes_and_link :
    let s := run (.laneLock 3) ported
    let t := run (.adaptationComplete 3 true) s
    lanePort ported 3 = some 3 ∧ laneLocked s 3 = true ∧ laneAdapted s 3 = false ∧ portLink t 3 = true ∧
    portAdapted t 3 = true ∧ laneLocked (run (.clockLockLoss 3) s) 3 = false ∧ portLink (run (.linkChange 3 ⟨false, none, 0, 0⟩) t) 3 = false ∧
    Sparse.get 0 (run (.adaptationCycle 3 [(1, true)]) t).pt.equaliser (pairKey 3 1) = 1 ∧
    portLink (run (.linkChange 3 ⟨true, none, 0, 0⟩) (run (.linkChange 3 ⟨false, none, 0, 0⟩) t)) 3 = true := by decide +kernel
theorem test_calendar_switch : -- port 3 is the only member of group 2
    let s := (((ported.wr F.PT_PORT.MODE 3 6).wr F.PT_FLEXE_GRP.PHYS 2 8).wr F.PT_FLEXE_GRP.EN 2 1)
    let t := run (.calendarSwitch (.fn 0) 2) s
    t.on F.PT_FLEXE_GRP.SW_BUSY 2 = true ∧ (run (.calendarSwitchDone 2) t).rd F.PT_FLEXE_GRP.CAL_USE 2 = 1 := by decide +kernel
theorem test_set_and_step :
    (run (.timeSet (.fn 0)) (hosted.wr F.PT_TIME_ADJ.VALUE 0 77)).clk.ptp = 77 ∧
    (run (.timeStep (.fn 0)) ((run (.timeSet (.fn 0)) (hosted.wr F.PT_TIME_ADJ.VALUE 0 77)).wr F.PT_TIME_ADJ.VALUE 0 (2 ^ 64 - 7))).clk.ptp = 70 := by
  decide +kernel
theorem test_pps :
    let s := (hosted.wr F.PT_PPS.IN_EN 0 1).wr F.PT_TIME_CTRL.PPS_DISC 0 1
    let at_ := fun (n : Nat) => { s with clk := { s.clk with ptp := n } }
    (run (.ppsEdge 0) (at_ 3000001000)).pt.ppsRun = 0 ∧ (run (.ppsEdge 0) (at_ 3000001000)).clk.ptp = 3000001000 ∧
    (run (.ppsEdge 0) (at_ 3000001001)).clk.ptp = 3000000000 ∧ (run (.ppsEdge (-9)) (at_ 2999999900)).pt.ppsRun = 1 ∧
    (run (.ppsEdge (-9)) (at_ 2999999900)).clk.ptp = 2999999891 ∧
    (run (.ppsEdge 0) { at_ 3000000000 with pt := { s.pt with ppsRun := 15 } }).on F.PT_TIME_CTRL.VALID 0 = true ∧
    (run .ppsOutEdge (hosted.wr F.PT_PPS.OUT_EN 0 1)).clk.ptp % 1000000000 = 0 := by decide +kernel

/-! ### Units, the Lath, power and start -/

def svcResult (s : State) : Nat := s.rd F.SY_SVC_CMD.RESULT 0

/-- Slices 0 to 15 serve in order, and slice 16 is the spare. -/
def served : State :=
  ({ hosted with hn := { hosted.hn with active := (List.range 16).map some, spare := some 16 } } : State).setSv 16 1

theorem test_slice_retires_to_the_spare :
    let s := run (.retire (.fn 0) 3 false) served
    let t := run (.sliceDrainEnd 3) s
    svState s 3 = 2 ∧ s.hn.active.getD 3 none = some 16 ∧ s.on F.SY_SVC_CMD.BUSY 0 = true ∧ sliceEmpty s 3 = true ∧
    svState t 3 = 3 ∧ svState t 16 = 0 ∧ t.rd F.SY_SVC_UNIT.STANDS_FOR 16 = 3 ∧ findPosition served (· == some 3) = some 3 := by
  decide +kernel
theorem test_slice_without_spare :
    svcResult (run (.retire (.fn 0) 3 true) served) = 0 ∧
    svcResult (run (.retire (.fn 0) 3 false) { served with hn := { served.hn with spare := none } }) = 1 ∧
    svcResult (run (.retire (.fn 0) 3 true)
      { served with hn := { served.hn with active := [none, some 3], spare := none } }) = 2 := by decide +kernel
theorem test_bank_retires :
    let s := hosted.setSv 64 1
    let t := run (.retire (.fn 0) 36 false) s
    svState t 36 = 2 ∧ freeBank s = some 64 ∧ svState (run (.bankSpareLoaded 4) t) 64 = 0 ∧
    (run (.bankSpareLoaded 4) t).rd F.SY_SVC_UNIT.STANDS_FOR 64 = 4 ∧
    svState (run (.retire (.fn 0) 36 true) s) 36 = 3 ∧ bitAt ((run (.retire (.fn 0) 36 true) s).rd F.LK_BANK_OOS.OOS 0) 4 = true := by
  decide +kernel
theorem test_lane_retires :
    let s := run (.retire (.fn 0) 100 false) hosted
    svState s 100 = 2 ∧ s.sv.runs.length = 1 ∧ svState (run (.laneRetireWindowEnd 4) s) 100 = 3 := by decide +kernel
theorem test_reinstate_stages_and_abort :
    let s := run (.reinstate (.fn 0) 36) (hosted.setSv 36 3)
    let go := fun (s : State) => run (.stageComplete 36 true) s
    svState s 36 = 4 ∧ svState (go s) 36 = 5 ∧ svState (go (go s)) 36 = 6 ∧ svState (go (go (go s))) 36 = 0 ∧
    svState (run (.stageComplete 36 false) s) 36 = 7 ∧ svcResult (run (.stageComplete 36 false) s) = 3 ∧
    svState (run (.abort (.fn 0) 36) s) 36 = 3 ∧ svcResult (run (.abort (.fn 0) 36) s) = 4 ∧
    svcResult (run (.abort (.fn 0) 37) s) = 2 := by decide +kernel
theorem test_shadow_compare :
    let s := (served.setSv 3 6).wr F.SY_SVC_CTRL.SHADOW_FAIL 0 1
    let ends := fun (r : Nat) => { s with hn := { s.hn with shadowEnds := [(8, true, 5), (8, false, r)] } }
    svState (run (.shadowCompare 3 8) (ends 5)) 3 = 6 ∧ svState (run (.shadowCompare 3 8) (ends 6)) 3 = 7 ∧
    (run (.shadowCompare 3 8) (ends 6)).rd F.SY_SVC_UNIT.MISMATCH 3 = 1 := by decide +kernel
theorem test_selftest_failure :
    let s := ((served.setSv 64 1).wr F.TN_CTRL.SELFTEST_EN 0 1).wr F.SY_SVC_CTRL.AUTO_SPARE 0 1
    svState (run (.selftestFailure 3 1) s) 3 = 2 ∧ svState (run (.selftestFailure 36 1) s) 36 = 2 ∧
    svState (run (.selftestFailure 3 1) (s.wr F.SY_SVC_CTRL.AUTO_SPARE 0 0)) 3 = 0 ∧
    (run (.selftestFailure 3 1) ((twin 5 false true).wr F.TN_CTRL.SELFTEST_EN 0 1)).on F.TN_STATUS.SUSPECT 0 = true := by decide +kernel

/-- Array 2 of Varton has `n` corrected errors in column 7, and `used` of its spare columns have gone. -/
def erring (n used : Nat) : State :=
  { live with sv := { live.sv with colErrs := Sparse.set [] [] (columnKey 1 2 7) (List.replicate n 0), colUsed := Sparse.set 0 [] (pairKey 1 2) used } }

theorem test_column_hypotheses :
    (columnErrors (erring 3 0) 1 2 7).length = 3 ∧ (columnErrors (erring 4 0) 1 2 7).length = 4 ∧
    columnFree (erring 4 0) 1 2 = true ∧ columnFree (erring 3 (Config.spareColumns 1 2 + 1)) 1 2 = false := by
  refine ⟨by decide +kernel, by decide +kernel, ?_, ?_⟩
  · exact decide_eq_true (Nat.succ_pos _)
  · have h : Sparse.get 0 (erring 3 (Config.spareColumns 1 2 + 1)).sv.colUsed (pairKey 1 2) = Config.spareColumns 1 2 + 1 := by
      exact Sparse.get_set_same 0 [] (pairKey 1 2) (Config.spareColumns 1 2 + 1)
    exact decide_eq_false (by rw [h]; exact Nat.lt_irrefl _)
theorem test_scrub_counts_the_error :
    Sparse.get [] (run (.sramScrub 1 2 7 .corrected) (erring 2 0)).sv.colErrs (columnKey 1 2 7) = [0, 0, 0] := by decide +kernel
theorem test_phase_check : -- the second phase carries too little; the first loss takes the spare
    let s := { live with lt := { live.lt with rails := 9 } }
    let t := run (.phaseCheck 2 [10, 1, 10] []) s
    phaseFails [10, 1, 10] [] 1 = true ∧ phaseFails [10, 1, 10] [] 0 = false ∧ phaseFails [10, 1, 10] [] 2 = false ∧
    Sparse.get none t.lt.phaseSub 2 = some 1 ∧
    Sparse.get false (run (.phaseCheck 2 [1, 10, 10] []) t).lt.phaseLost 2 = true := by decide +kernel

/-- The module runs with VIN and VAUX valid, in power state `p`. -/
def powered (p : Nat) : State :=
  let s := (hosted.wr F.LT_SUPPLY.VIN_VALID 0 1).wr F.LT_POWER.STATE 0 p
  { s with lt := { s.lt with vaux := true, rails := 9 } }

theorem test_supplies :
    let s := run .vinLoss (powered 4)
    s.clk.diesOn = false ∧ powerState s = 1 ∧ (run .vinOvervoltage (powered 4)).on F.LT_SUPPLY.SURGE 0 = true ∧
    (run (.vinLow true) (powered 4)).lt.life.vinLow = 1 ∧ (run (.vinSurge true) (powered 4)).lt.life.vinSurge = 1 ∧
    (run .vauxLoss (powered 4)).lt.running = false ∧ (run (.lathStart 0) (run .vauxLoss (powered 4))).lt.running = false ∧
    (run (.lathStart 2) (run .vauxValid (run .vauxLoss (powered 4)))).lt.straps = 2 ∧
    (run .vinValid State.reset).on F.LT_SUPPLY.VIN_VALID 0 = true ∧ (run .xtalFail live).on F.LT_SUPPLY.XTAL_FAIL 0 = true := by
  decide +kernel
theorem test_lath_records :
    (run .lockstepReset (powered 4)).out.length = 1 ∧ (run .lifeRecordHourly (powered 4)).clk.lath = 3600000000000 ∧
    (run .lifeRecordHourly (powered 4)).lt.life.onHours = 1 := by decide +kernel
theorem test_rails :
    let s := { powered 1 with lt := { (powered 1).lt with rails := 8, raising := true } }
    (run (.railInRegulation 8) s).lt.rails = 9 ∧ (run (.railInRegulation 8) s).lt.raising = false ∧
    (run (.railTimeout 8) s).lt.blocked = true ∧ (run (.railInRegulation 7) s).lt.rails = 8 := by decide +kernel
theorem test_sample_and_rule : -- rule 9 on channel 4 asks for power state 2 above 100
    let s := (((powered 4).wr F.LT_RULE.EN 9 1).wr F.LT_RULE.CHAN 9 4).wr F.LT_RULE.THRESH 9 100
    let s := ((s.wr F.LT_RULE.ACTION 9 2).wr F.LT_RULE.PARAM 9 2)
    let late := { s with clk := { s.clk with lath := 1000000000 } }
    let t := run (.adcSample 4 101) { late with lt := { late.lt with rules := [(9, ⟨0, none, none⟩)] } }
    t.rd F.LT_CHAN.LAST 4 = 101 ∧ ruleAsserted t 9 = true ∧ t.rd F.LT_POWER.REQ 0 = 2 ∧
    ruleAsserted (run (.adcSample 4 100) late) 9 = false ∧ ruleAsserted (run (.ruleWrite (.fn 0) 9 0 1) t) 9 = false := by
  decide +kernel
theorem test_stack_throttle :
    let s := fun (x : Int) => { live with
      clk := { live.clk with lath := 1000000000 }, lt := { live.lt with sources := [(42, x)], stackLevel := [(1, 5)] } }
    Sparse.get 0 (run (.stackThrottleStep 1) (s 93000)).lt.stackLevel 1 = 6 ∧
    Sparse.get 0 (run (.stackThrottleStep 1) (s 92999)).lt.stackLevel 1 = 5 ∧
    Sparse.get 0 (run (.stackThrottleStep 1) (s 90000)).lt.stackLevel 1 = 4 := by decide +kernel
theorem test_channel_source :
    (run (.channelSourceWrite (.fn 0) 4 63) live).rd F.LT_CHAN.SOURCE 4 = 49 := by decide +kernel

theorem test_power_transitions :
    let ask := fun (p q : Nat) (s : State) => (s.wr F.LT_POWER.STATE 0 p).wr F.LT_POWER.REQ 0 q
    (run .powerTransition (ask 1 3 (powered 1))).lt.transition = some (.start 0) ∧
    (run .powerTransition (ask 1 2 (powered 1))).lt.transition = some (.dormantToHoldover 0) ∧
    (run .powerTransition (ask 2 3 (powered 2))).lt.transition = some (.fromHoldover 0) ∧
    (run .powerTransition (ask 4 2 (powered 4))).lt.transition = some (.toHoldover 0) ∧
    powerTarget (ask 4 1 (powered 4)) = 1 ∧
    powerState (run .powerTransition ((ask 4 3 (powered 4)).wr F.LT_DOMAIN.PORT_OFF 0 1)) = 3 := by decide +kernel

/-- A transition runs. -/
def moving_ (x : Transition) (p : Nat) : State := { powered p with lt := { (powered p).lt with transition := some x } }

theorem test_entries_and_return :
    powerState (run .holdoverEntryDrainEnd (moving_ (.toHoldover 0) 4)) = 2 ∧
    powerState (run .dormantEntry (moving_ (.toDormant 0) 4)) = 1 ∧ powerState (run .holdoverReturn (moving_ (.fromHoldover 0) 2)) = 4 ∧
    drained (powered 4) = true ∧ recoating (powered 4) = false ∧
    (run .holdoverEntryDrainEnd ((moving_ (.toHoldover 0) 4).wr F.VT_PORT.POWER 5 1)).lt.held = false := by decide +kernel
theorem test_slices_power_down_and_up :
    let s := run (.slicePowerDown 3) (served.wr F.LT_DOMAIN.SLICE_OFF 0 8)
    let t := run (.slicePowerDownTimeout 3) s
    svState s 3 = 3 ∧ s.hn.active.getD 3 (some 0) = none ∧ t.clk.ns = 20000 ∧ (sliceDown t 3).map (·.unpowered) = some true ∧
    svState (run (.slicePowerUp 3 true) (t.wr F.LT_DOMAIN.SLICE_OFF 0 0)) 3 = 0 ∧
    svState (run (.slicePowerUp 3 false) (t.wr F.LT_DOMAIN.SLICE_OFF 0 0)) 3 = 7 := by decide +kernel
theorem test_perst_and_wake :
    let due := { (live.wr F.LT_WAKE.PENDING 0 0) with lt := { live.lt with wakeDue := [7] } }
    (run .perstAssert hosted).rd F.SY_REALM_CTRL.ENABLE 1 = 0 ∧ (run .perstDeassert (run .perstAssert hosted)).host.endpoint = .training ∧
    (run .endpointReady (run .perstDeassert (run .perstAssert hosted))).host.endpoint = .ready ∧
    (run (.wakeRequest 7 .l0 false) due).rd F.LT_WAKE.CAUSE 0 = 7 ∧ (run (.wakeRequest 7 .l0 false) due).rd F.LT_WAKE.PENDING 0 = 0 ∧
    (run (.wakeRequest 7 .l1 false) due).out.contains .pmPme = true ∧ (run (.wakeRequest 7 .l1 true) due).out.contains .pmPme = false ∧
    (run (.wakeRequest 7 .l1 false) (due.wr F.LT_WAKE.PENDING 0 1)).rd F.LT_WAKE.MERGED 0 = 1 ∧
    (run .linkL0 ((live.wr F.LT_WAKE.PENDING 0 1).wr F.LT_WAKE.PIN 0 1)).rd F.LT_WAKE.PIN 0 = 0 ∧
    (run .hostResume { live with lt := { live.lt with resuming := false } }).lt.resuming = true := by decide +kernel

/-- The rails stand, and the dies are about to leave reset. -/
def exiting : State :=
  let s := moving_ (.start 0) 1
  { s with clk := { s.clk with diesOn := false } }

theorem test_start :
    let s := run .dieResetExit exiting
    let t := run .trainingStart s
    let train := fun (st : Nat) (s : State) => run (.fullTraining st ⟨1, 20, [], [], []⟩) s
    let t := train 0 (train 1 (train 2 t))
    let u := run (.coatLoad true true) t
    let v := run .coatActive u
    exitReady exiting = true ∧ s.clk.diesOn = true ∧ s.lt.rootPower = true ∧ hbState s 2 = 1 ∧ s.hn.active.getD 15 none = some 15 ∧ s.hn.spare = some 16 ∧
    stacksTrained t = true ∧ t.lt.loaded = .none ∧ u.lt.loaded = .base ∧ u.rd F.LT_BOOT.COAT 0 = 3 ∧
    v.rd F.SY_COAT_STATUS.GENERATION 0 = 1 ∧ powerState v = 4 ∧ v.cnt.reporting = true := by decide +kernel
theorem test_start_falls_back : -- a standing coat, and no flash device that can be read
    let s := moving_ (.start 0) 1
    let s := ((s.wr F.HB_STATUS.STATE 0 2).wr F.HB_STATUS.STATE 1 2).wr F.HB_STATUS.STATE 2 2
    let t := run (.coatLoad false false) { s with lt := { s.lt with standing := some ⟨[], []⟩ } }
    t.rd F.LT_BOOT.REASON 0 = 3 ∧ t.rd F.LT_BOOT.FALLBACK 0 = 1 := by decide +kernel
theorem test_holdover_start_hypotheses :
    let s := moving_ (.dormantToHoldover 0) 1
    let s := { s with lt := { s.lt with loaded := .holdover } }
    s.lt.transition = some (.dormantToHoldover 0) ∧ s.lt.loaded ≠ .none ∧ s.rd F.SY_COAT_STATUS.GENERATION 0 = 0 ∧
    (run .standingCoatLoaded { s with lt := { s.lt with standingDue := true } }).lt.standingStaged = true := by decide +kernel
theorem test_smbus :
    let o := regOffset .LT_CHAN 4 0
    let strapped := { live with lt := { live.lt with straps := 2, smbOffset := o } }
    (run (.smbusSetOffset 0x58 32 true) live).lt.smbOffset = 32 ∧ (run (.smbusSetOffset 0x58 32 false) live).lt.smbOffset = 0 ∧
    (run (.smbusBlockRead 0x5A) strapped).out.length = 1 ∧ (run (.smbusBlockRead 0x58) strapped).out = [] ∧
    (run (.smbusBlockWrite 0x58 o .w64 7 true) live).rd F.LT_CHAN.SOURCE 4 = 7 ∧
    (regDesc .LT_CHAN).bits ≠ 32 ∧ reachable live .smbus o (.reg .LT_CHAN 4 0) = true := by decide +kernel
theorem test_filter_write :
    let s := { hosted with cnt := { hosted.cnt with banks := [(pairKey 0 9, 5)] } }
    (run (.pcFilterWrite 0 0 0x20003) s).rd F.PC_FILTER.PRIV 0 = 3 ∧ Sparse.get 0 (run (.pcFilterWrite 0 0 0x20003) s).cnt.banks (pairKey 0 9) = 0 := by
  decide +kernel
theorem test_reports :
    let s := { live with cnt := { live.cnt with reporting := true } }
    (Sparse.get [] (run .healthReport s).cnt.lathStore 1).take 4 = [0x48, 0x4C, 0x54, 0x48] ∧
    (run .healthReport s).rd F.PC_HR_STATUS.SEQ 0 = 1 ∧ Sparse.get 0 (run .healthReport s).cnt.events 1156 = 1 ∧
    (run .healthReport { twin 5 true true with cnt := s.cnt }).tn.tx.length = 1 ∧
    (run (.twinReportReceive (List.replicate 256 1)) (twin 5 true true)).rdWide F.TN_TWIN_REPORT.REPORT 0 ≠ 0 := by decide +kernel

/-! ### Reads, windows, and accesses that wait -/

/-- What left the module in a command. -/
def sent (c : Instr) (s : State) : List Out := (run c s).out

theorem test_bar2_reads : -- the staged coat's code; an unlisted offset; before service; in a recoat
    let s := run (.bar2Write 0 8 .w64 0x1122334455667788) hosted
    let dark := s.wr F.SY_IMAGE_STATUS.SERVICE_READY 0 0
    sent (.rcRead (.bar2 12 .w32)) s = [.barData 2 12 0x11223344] ∧ bar2At s (2 ^ 30 - 8) = none ∧
    sent (.rcRead (.bar2 (2 ^ 30 - 8) .w64)) s = [.barData 2 (2 ^ 30 - 8) 0] ∧
    (run (.rcRead (.bar2 (2 ^ 30 - 8) .w64)) s).rd F.SY_REFUSED_ACCESS.COUNT 0 = 1 ∧
    sent (.rcRead (.bar2 8 .w32)) dark = [.barData 2 8 0] ∧
    (run (.rcRead (.bar2 8 .w32)) (s.wr F.SY_COAT_STATUS.STATE 0 1)).coat.waits = [.bar2Read 8 .w32] := by decide +kernel
theorem test_bar4_read : -- the directory's entry of sequence number 5: 32 bytes at 160, SEQ first
    let g := { segment 40 with seq := 5 }
    let s := { hosted with fr := { hosted.fr with directory := [(5, some (dirEntry g 4 3 true))] } }
    sent (.rcRead (.bar4 160 .w64)) s = [.barData 4 160 5] ∧ hostBehind s (.fn 0) = false := by decide +kernel
theorem test_half_reads_latch : -- COUNT is 2³² + 3; it grows between the halves
    let o := regOffset .SY_REFUSED_ACCESS 0 0
    let s := run (.rcRead (.csr (.fn 0) o .w32)) (hosted.wr F.SY_REFUSED_ACCESS.COUNT 0 0x100000003)
    s.out = [.readData (.fn 0) o 3] ∧
    (sent (.rcRead (.csr (.fn 0) (o + 4) .w32)) (s.wr F.SY_REFUSED_ACCESS.COUNT 0 0x200000000)).getLast? =
      some (.readData (.fn 0) (o + 4) 1) := by decide +kernel
theorem test_messages_wait_for_their_function :
    let s (n : Nat) : State := { hosted with host := { hosted.host with
      numVfs := n, msixEnable := 2, busMaster := 3, msixPending := [(pairKey 1 0, true)], msixCtl := [(pairKey 1 0, 0)] } }
    msixOpen (s 5) 1 0 = true ∧ ((s 5).msixFlush 1).out = [.msix 1 0] ∧ ((s 0).msixFlush 1).out = [] := by decide +kernel

/-- A window's operation runs until 10 µs. -/
def busyWindow (r : Reg) : State := { hosted with host := { hosted.host with busyTill := [(pairKey r.code 0, 10000)] } }

theorem test_busy_windows_discard :
    windowBusy (busyWindow .VT_MTR_WIN) .VT_MTR_WIN 0 = true ∧ windowBusy hosted .VT_MTR_WIN 0 = false ∧
    (run (.meterRead (.fn 0) 0 9) (busyWindow .VT_MTR_WIN)).rd F.VT_MTR_WIN.INDEX 0 = 0 ∧
    (run (.streamRead (.fn 0) 9) (busyWindow .TN_STREAM_WIN)).rd F.TN_STREAM_WIN.INDEX 0 = 0 ∧
    (run (.saRead (.fn 0) 9) (busyWindow .PT_SA_WIN)).rd F.PT_SA_WIN.INDEX 0 = 0 ∧
    windowBusy held .TN_STREAM_WIN 0 = false := by decide +kernel

theorem test_flip_starts_steward_threads : -- a thread without a slot, at the staged coat's start word
    let s := { (staged.wr F.SY_COAT_STATUS.STATE 0 1) with coat := { staged.coat with slotB := { Coat.empty with starts := [(3, 77)] } } }
    let t := run .recoatFlip s
    (t.thread (.steward 0 0 3)).pc = 77 ∧ (t.thread (.steward 0 0 3)).held = some 1 ∧ activeSlot t = 1 := by decide +kernel
theorem test_waits_are_served_at_the_end : -- a BAR2 write and a read behind it
    let s := (staged.wr F.SY_COAT_STATUS.STATE 0 1)
    let s := run (.rcRead (.bar2 0 .w32)) (run (.bar2Write 0 0 .w32 7) s)
    let t := run .recoatDrainEnd (run .recoatFlip s)
    s.coat.waits.length = 2 ∧ t.coat.waits = [] ∧ t.out = [.barData 2 0 7] := by decide +kernel
theorem test_assoc_write_completes_in_its_bank :
    let s := run (.assocWrite 0 0) (ringWith (tableOp 5 1 0) hosted)
    (ringAt s 0 0).run = .route 4096 (tableOp 5 1 0) ∧ s.lk.updates.length = 1 ∧
    (ringAt (run (.assocBankUpdate 0 0) s) 0 0).run = .idle ∧ hostBytes (run (.assocBankUpdate 0 0) s) (4096 + 12) 2 = [0, 0] := by
  decide +kernel
theorem test_staged_route_change_waits : -- a staged change in a recoat does not hold a live one behind it
    let s := hosted.wr F.SY_COAT_STATUS.STATE 0 1
    let j := fun (flags : Nat) => RouteJob.op none 0 (tableOp 1 flags 9)
    let t := { s with lk := { s.lk with routeQ := [j 0, j 1] } }
    jobWaits t (j 0) = true ∧ jobWaits t (j 1) = false ∧ (run .routeChange t).lk.routeQ = [j 0] := by decide +kernel
theorem test_vrf_move_takes_the_routes :
    let r : Route := ⟨5, 9, 0, 0, 7, 0, 3⟩
    let s := tabled.setDescWord 5 0 3
    let s := { s with lk := { s.lk with routes := [(6, some r)] } }
    let t := run .routeChange (run (.vrfMapWrite (.fn 0) (tblFamily s 5) 9 1) s)
    vrfGroup t (tblFamily s 5) 9 = 1 ∧ stageUnits t 2 (tblFamily s 5) 1 = [6] ∧ stageUnits t 2 (tblFamily s 5) 0 = [] := by
  decide +kernel
theorem test_follower_neither_sweeps_nor_deletes :
    let s := (follows.wr F.LK_AGE_CTRL.EN 0 1)
    let s := { s with lk := { s.lk with slots := learned.lk.slots, tdesc := learned.lk.tdesc, sweeps := [(5, key8, 0)] } }
    tnFollower s = true ∧ (run .ageCompareDelete s).lk.slots = learned.lk.slots ∧ (run .ageCompareDelete s).lk.sweeps = [] := by
  decide +kernel
theorem test_change_and_learn_reach_the_twin :
    let s := { leads with lk := { learned.lk with learnQ := [⟨5, key8, 8, 78, 0⟩] }, tn := { leads.tn with sending := true } }
    let e : LearnEv := ⟨5, key8, 8, 79, 0⟩
    (run .learnEngineEvent s).tn.tx = [.change ⟨1, .write, 5, key8, 78, 0⟩] ∧
    (run (.twinLearnEvent e) (s.wr F.LK_LEARN_CTRL.EN 0 1)).lk.learnQ.length = 2 ∧
    ((itemsOf (run (.refreshRecord 5 key8) (s.wr F.LK_AGE_CTRL.NOW 0 3)) 5 (.nibs key8)).map (fun x => x.2.ts)) = [3] := by
  decide +kernel
theorem test_change_record_is_applied :
    let s := { follows with lk := learned.lk }
    let t := run (.changeRecord ⟨4, .write, 5, key8, 90, 2⟩) s
    (itemsOf t 5 (.nibs key8)).map (fun x => (x.2.data, x.2.ts)) = [(90, 2)] ∧ t.tn.applied = [(5, key8, 4)] ∧
    itemsOf (run (.changeRecord ⟨5, .erase, 5, key8, 0, 0⟩) t) 5 (.nibs key8) = [] := by decide +kernel
theorem test_flush_deletes_what_matches :
    (itemsOf (run (.tableFlush 0 0) (ringWith (tableOp 3 1 77) learned)) 5 (.nibs key8)) = [] ∧
    topMask (tableOp 3 1 77) = 0 := by decide +kernel

/-! ### The assay, frame ages and background work that is late -/

theorem test_assay_cursor_and_late_pass :
    let s := run (.assayVisit 0) (run (.bufferRequest [ask]) pooled)
    let late := { s with clk := { s.clk with ns := 2000000001 } }
    s.bm.cursor = 1 ∧ (run (.assayVisit 0) s).bm.bins = s.bm.bins ∧ (run (.assayPassEnd []) late).bm.cursor = 0 ∧
    Sparse.get 0 (run (.assayPassEnd []) late).cnt.events 1090 = 1 ∧ (run (.assayPassEnd []) s).cnt = s.cnt := by decide +kernel
theorem test_head_that_is_left_too_long :
    let s := { pooled with q := { pooled.q with eqs := [(0, [⟨pkt0, 0, 0, 0⟩])], ageSeen := [(queueObj (.eq 0), some 0)] } }
    let late := { s with clk := { s.clk with ns := 1000000000000 } }
    Sparse.get 0 (run (.frameAgeSweep (.eq 0)) late).cnt.events 1090 = 1 ∧
    Sparse.get 0 (run (.frameAgeSweep (.eq 0)) s).cnt.events 1090 = 0 := by decide +kernel
theorem test_late_sweep_is_counted_twice :
    let s := (learned.wr F.LK_AGE_CTRL.EN 0 1)
    let t := run (.sweepVisit 0 0 true) { s with lk := { s.lk with slots := [(pairKey 0 0, some ⟨5, key8, 77, 0, 3, true⟩)] } }
    Sparse.get 0 t.cnt.events 205 = 1 ∧ Sparse.get 0 t.cnt.events 1090 = 1 := by decide +kernel

/-! ### Cells for another module, and the order in which lanes send -/

/-- A unicast packet for module 3 waits at the VOQs. -/
def abroad : State := run (.vartonIngress (.dieLink 0)) { atVarton (pktTo 3077 3) (some 0) with csr := linked.csr }

theorem test_cells_wait_for_their_lane :
    let s := { linked with fb := { linked.fb with tx := [(0, ⟨[(3, 6)], [], [⟨1, []⟩], [⟨2, []⟩], [⟨3, []⟩]⟩)] } }
    let t1 := transmitLane s 0
    let t2 := transmitLane t1 0
    let t3 := transmitLane t2 0
    t1.out = [.cell 0 (controlCell s 3 [6])] ∧ t2.out.getLast? = some (.cell 0 ⟨1, []⟩) ∧ t3.out.getLast? = some (.cell 0 ⟨2, []⟩) ∧
    (transmitLane t3 0).out.getLast? = some (.cell 0 ⟨3, []⟩) ∧ laneTx (transmitLane t3 0) 0 = LaneTx.init ∧
    twinLane s 0 = false ∧ patternOf s 3 = [0] := by decide +kernel
theorem test_henig_holds_a_destination :
    henigAccepts hosted 2 = true ∧ twinAccepts hosted = false ∧ (run (.schedulerDecision (.port 161)) (queued 161)).q = (queued 161).q := by
  decide +kernel

/-! ### Fresco: misuse, times and targets in use -/

theorem test_packet_that_is_no_copy_is_a_misuse :
    let s := { capturing with q := { capturing.q with eqs := [(0, [⟨pkt0, 0, 0, 0⟩])] } }
    Sparse.get 0 (run .frescoRecord s).cnt.events 768 = 1 ∧ (run .frescoRecord s).fr.opened = none := by decide +kernel
theorem test_capture_time_never_goes_back : -- the time base has been set back
    (run .frescoRecord { capturing with fr := { capturing.fr with lastCap := 900 } }).fr.lastCap = 900 ∧
    (run .frescoRecord { capturing with clk := { capturing.clk with ptp := 1000 } }).fr.lastCap ≥ 1000 := by decide +kernel

/-! ### Trowel and the steward's system writes -/

theorem test_fetch_from_host_memory_that_fails :
    (run (.twEnd 5 true) (program (6 * 2 ^ 60) TwChan.init)).rd F.TW_CH_STATUS.FAULT 5 = 5 ∧
    twState (run (.twEnd 5 true) (program (6 * 2 ^ 60) TwChan.init)) 5 = 5 := by decide +kernel
theorem test_moves_share_the_engine : -- channel 6's move is served while channel 5's runs
    let big := { moving with len := 4096 }
    let s := (program 0 { TwChan.init with moves := [big] }).setTw 6 { TwChan.init with moves := [{ big with dst := 0x8000 }] }
    let t := run (.moveComplete 5 0 false) s
    (twChan t 5).moves = [] ∧ ((twChan t 6).moves.map (fun m => decide (0 < m.served))) = [true] ∧ big.requests.length > 1 := by
  decide +kernel
theorem test_xwr_waits : -- for a held stack, and behind an earlier write of its thread
    let f : FmtA := ⟨0, 1, 2, 0⟩
    let s := (sAt ((steward.setReg 1 0x0100000000000040).setReg 2 7) (encA 0x65 f)).wr F.HB_STATUS.STATE 0 4
    let t := (sAt ((steward.setReg 1 0x40).setReg 2 7) (encA 0x65 f))
    sysWaits s 0x0100000000000040 = true ∧ (run (.iXwr st f) s).coat.waits = [.xwr st 0x0100000000000040 7] ∧
    (run (.iXwr st f) { t with coat := { t.coat with waits := [.xwr st 8 1] } }).coat.waits.length = 2 := by decide +kernel

/-! ### Holdover, supplies and the package -/

theorem test_slice_that_is_powered_down_first : -- a slice out of service keeps its state
    svState (run (.slicePowerDown 3) ((served.wr F.LT_DOMAIN.SLICE_OFF 0 8).setSv 3 7)) 3 = 7 := by decide +kernel
theorem test_overvoltage_delays_vin : -- 1 s at or below 45 V
    let s := run .vinOvervoltage (powered 4)
    let t := run (.vinSurge false) s
    run .vinValid s = s ∧ s.lt.overvolt = true ∧ (run .vinValid t).clk.lath = t.lt.calmAt + 1000000000 ∧
    (run .vinValid t).on F.LT_SUPPLY.VIN_VALID 0 = true := by decide +kernel
theorem test_root_ports_in_holdover :
    let s := moving_ (.toHoldover 0) 4
    let s := { s with lt := { s.lt with rootPower := true } }
    (run .holdoverEntryDrainEnd s).lt.rootPower = false ∧
    (run .powerTransition ((powered 2).wr F.LT_POWER.REQ 0 3)).lt.rootPower = true := by decide +kernel
theorem test_ball_examples : -- the manual's worked balls, X37 and the endpoint's lane 7, and its count of GND
    (fabricBalls 37).map (fun b => (rowName b.row, b.col)) = [(['C', 'K'], 43), (['C', 'J'], 43), (['C', 'G'], 43), (['C', 'F'], 43)] ∧
    (endpointBalls 7).map (fun b => (rowName b.row, b.col)) = [(['A', 'T'], 2), (['A', 'U'], 2), (['A', 'T'], 4), (['A', 'U'], 4)] ∧
    ballSide * ballSide - namedBalls.length = 4746 := by decide +kernel
theorem test_no_ball_is_named_twice : -- as many bits as balls
    let bits := namedBalls.foldl (fun m b => m ||| 2 ^ (128 * b.row + b.col)) 0
    ((List.range (128 * 74)).filter bits.testBit).length = namedBalls.length := by decide +kernel
theorem test_root_clock_follows_its_port :
    rootClock { hosted with lt := { hosted.lt with rootPower := true } } 1 = true ∧
    rootClock { hosted with lt := { hosted.lt with rootPower := false } } 1 = false := by decide +kernel

end Sys2Proof.Tests
end

section
/-! SUPPORT. The integer, compare, bit-field, branch and key instructions (R127 to R129, R138, R140, R156): the rule of
an instruction that acts on its own thread, what each result is as a number, and the statements about them. -/

namespace Sys2Proof.Machine

/-! ### The rule of an instruction that acts on its own thread -/

/-- With a field outside its legal set, or in a thread of the wrong kind, issue is fault 1 (R125). -/
theorem issue_eq_fault (s : State) (t : Tid) (w : BitVec 32) (who : Who) (n : Nat) (legal : Bool)
    (body : State → State) (h : Issues s t w) (hl : (who.allows t && legal) = false) :
    issue s t w who n legal body = threadFault s t 1 (s.thread t).pc w 0 := by
  obtain ⟨_, hissue, hfetch⟩ := h
  have hbad : (!who.allows t || !legal) = true := by rw [← Bool.not_and, hl]; rfl
  simp [issue, hissue, hfetch, hbad]

@[simp] theorem advance_reg (s : State) (t : Tid) (r : Nat) : (advance s t).reg r = (s.thread t).reg r := rfl
@[simp] theorem advance_pred (s : State) (t : Tid) (p : Nat) : (advance s t).pred p = (s.thread t).pred p := rfl
@[simp] theorem advance_preds (s : State) (t : Tid) : (advance s t).preds = (s.thread t).preds := rfl
@[simp] theorem advance_pc (s : State) (t : Tid) : (advance s t).pc = ((s.thread t).pc + 1) % codeSize t := rfl

theorem opcodeDefined_lt {op : Nat} (h : opcodeDefined op = true) : op < 128 := by
  rw [opcodeDefined, decide_eq_true_eq] at h
  omega

/-- An instruction of any thread whose body updates its own thread obeys its rule. -/
theorem threadRule_of_issue {c : Instr} {s : State} {t : Tid} {w : BitVec 32} {op slots : Nat} {b : Bool} {P : Prop}
    {f eff : Thread → Thread} (hc : exec c s = .next (issue s t w .any slots b (fun s => s.updThread t f)))
    (hw : w.toNat / 2 ^ 25 = op) (hop : opcodeDefined op = true) (hb : b = true ↔ P)
    (heff : P → f (advance s t) = eff (advance s t)) : ThreadRule c s t w slots P eff := by
  intro h
  constructor
  · intro hP
    refine ⟨_, by rw [hc, issue_eq_body s t w _ slots b _ h (hw ▸ hop) rfl (hb.mpr hP)], ?_⟩
    rw [← heff hP]
    exact onlyThread_updThread s t slots f h.1
  · intro hP
    have hfalse : (Who.any.allows t && b) = false := Bool.eq_false_iff.mpr (fun e => hP (hb.mp e))
    rw [hc, issue_eq_fault s t w .any slots b _ h hfalse]

/-- A three-register instruction gives D the value `v`. -/
theorem threadRule_of_aluA {c : Instr} {s : State} {t : Tid} {op slots : Nat} {f : FmtA} {P : Prop}
    [Decidable P] {g : Thread → Word → Word → Word} {v : Word}
    (hc : exec c s = .next (aluA s t op f slots (decide P) g)) (hop : opcodeDefined op = true)
    (hv : P → g (advance s t) ((s.thread t).reg f.a.toNat) ((s.thread t).reg f.b.toNat) = v) :
    ThreadRule c s t (encA op f) slots P (fun th => th.setReg f.d.toNat v) :=
  threadRule_of_issue hc (encA_opcode op f (opcodeDefined_lt hop)) hop decide_eq_true_iff
    (fun hP => by rw [← hv hP]; rfl)

/-- A register and immediate instruction gives D the value `v`. -/
theorem threadRule_of_aluI {c : Instr} {s : State} {t : Tid} {op : Nat} {f : FmtI} {b : Bool} {P : Prop}
    {g : Thread → Word → Word} {v : Word} (hc : exec c s = .next (aluI s t op f b g))
    (hop : opcodeDefined op = true) (hb : (b && decide (f.p = 0)) = true ↔ P)
    (hv : P → g (advance s t) ((s.thread t).reg f.a.toNat) = v) :
    ThreadRule c s t (encI op f) 1 P (fun th => th.setReg f.d.toNat v) :=
  threadRule_of_issue hc (encI_opcode op f (opcodeDefined_lt hop)) hop hb (fun hP => by rw [← hv hP]; rfl)

/-- A compare with an immediate gives predicate p the value `v`. -/
theorem threadRule_of_cmpI {c : Instr} {s : State} {t : Tid} {op : Nat} {f : FmtI} {g : Word → Bool} {v : Bool}
    (hc : exec c s = .next (cmpI s t op f g)) (hop : opcodeDefined op = true)
    (hv : g ((s.thread t).reg f.a.toNat) = v) :
    ThreadRule c s t (encI op f) 1 (f.d = 0) (fun th => th.setPred f.p.toNat v) :=
  threadRule_of_issue hc (encI_opcode op f (opcodeDefined_lt hop)) hop decide_eq_true_iff
    (fun _ => by rw [← hv]; rfl)

/-! ### Predicates -/

/-- The sum of the powers of two that `b` selects below `n`. -/
def bitSum (b : Nat → Bool) (n : Nat) : Nat := (List.range n).foldl (fun a i => a + if b i then 2 ^ i else 0) 0

theorem bitSum_succ (b : Nat → Bool) (n : Nat) : bitSum b (n + 1) = 2 ^ n * (b n).toNat + bitSum b n := by
  rw [bitSum, List.range_succ, List.foldl_append, Nat.add_comm]
  cases h : b n <;> simp [h, bitSum]

theorem bitSum_lt (b : Nat → Bool) (n : Nat) : bitSum b n < 2 ^ n := by
  induction n with
  | zero => simp [bitSum]
  | succ n ih =>
    rw [bitSum_succ, Nat.pow_succ]
    cases b n <;> simp <;> omega

theorem testBit_bitSum (b : Nat → Bool) (n i : Nat) : (bitSum b n).testBit i = (decide (i < n) && b i) := by
  induction n with
  | zero => simp [bitSum]
  | succ n ih =>
    rw [bitSum_succ, Nat.testBit_two_pow_mul_add _ (bitSum_lt b n), ih]
    obtain h | rfl | h := Nat.lt_trichotomy i n
    · simp [h, Nat.lt_succ_of_lt h]
    · cases b i <;> simp
    · have h1 : ¬i < n := by omega
      have h2 : ¬i < n + 1 := by omega
      have h3 : i - n ≠ 0 := by omega
      simp [h1, h2, h3, Nat.testBit_bool_toNat]

/-- The predicates after one of them is set, summed bit by bit. -/
theorem setPred_eq_bitSum (th : Thread) (x : Nat) (v : Bool) (hx : x < 8) : th.setPred x v =
    { th with preds := BitVec.ofNat 8 (bitSum (fun i => if i = x then v else th.preds.getLsbD i) 8) } := by
  rw [Thread.setPred]
  congr 1
  apply BitVec.eq_of_getLsbD_eq
  intro i hi
  rw [BitVec.getLsbD_ofNat, BitVec.getLsbD_ofNat, testBit_bitSum, setBit, testBit_putBits]
  by_cases h : i = x
  · subst h; cases v <;> simp [hi, flag]
  · rw [if_neg (by omega)]
    simp [hi, h, BitVec.getLsbD]

/-- A compare of two registers sets the predicate that x names to `v` and keeps the others. -/
theorem threadRule_of_cmpA {c : Instr} {s : State} {t : Tid} {op : Nat} {f : FmtA}
    {g : Word → Word → Bool} {v : Bool} (hc : exec c s = .next (cmpA s t op f g)) (hop : opcodeDefined op = true)
    (hv : g ((s.thread t).reg f.a.toNat) ((s.thread t).reg f.b.toNat) = v) :
    ThreadRule c s t (encA op f) 1 (f.d = 0 ∧ f.x.toNat < 8) (fun th =>
      let bit := fun i => if i = f.x.toNat then v else (s.thread t).preds.getLsbD i
      { th with preds := BitVec.ofNat 8 (bitSum bit 8) }) := by
  refine threadRule_of_issue hc (encA_opcode op f (opcodeDefined_lt hop)) hop decide_eq_true_iff (fun ⟨_, hx⟩ => ?_)
  rw [advance_reg, advance_reg, hv, Nat.mod_eq_of_lt hx, setPred_eq_bitSum _ _ _ hx, advance_preds]

theorem plogBit_eq (table : Nat) (pa pb : Bool) :
    plogBit table pa pb = table.testBit (2 * pa.toNat + pb.toNat) := by
  cases pa <;> cases pb <;> rfl

theorem setWidth8_eq (v : Word) : v.setWidth 8 = BitVec.ofNat 8 (v.toNat % 256) := by
  apply BitVec.eq_of_toNat_eq
  simp

/-! ### Results of the integer and bit-field instructions as numbers -/

theorem shiftLeft_eq_mul (a : Word) (n : Nat) : a <<< n = BitVec.ofNat 64 (a.toNat * 2 ^ n) := by
  rw [← Nat.shiftLeft_eq]; rfl

theorem ushiftRight_eq_div (a : Word) (n : Nat) : a >>> n = BitVec.ofNat 64 (a.toNat / 2 ^ n) := by
  apply BitVec.eq_of_toNat_eq
  rw [BitVec.toNat_ofNat, BitVec.toNat_ushiftRight, Nat.shiftRight_eq_div_pow,
    Nat.mod_eq_of_lt (Nat.lt_of_le_of_lt (Nat.div_le_self ..) a.isLt)]

theorem sshiftRight_eq_div (a : Word) (n : Nat) : a.sshiftRight n = BitVec.ofInt 64 (a.toInt / 2 ^ n) := by
  rw [BitVec.sshiftRight, Int.shiftRight_eq_div_pow]; simp

theorem add_immS (a : Word) (imm : BitVec 12) : a + immS imm = BitVec.ofInt 64 (a.toInt + imm.toInt) := by
  rw [BitVec.ofInt_add, BitVec.ofInt_toInt]; rfl

theorem immZ_eq (imm : BitVec 12) : immZ imm = BitVec.ofNat 64 imm.toNat := (BitVec.ofNat_toNat ..).symm

theorem eq_immZ (a : Word) (imm : BitVec 12) : a = immZ imm ↔ a.toNat = imm.toNat := by
  rw [← BitVec.toNat_inj, immZ, BitVec.toNat_setWidth, Nat.mod_eq_of_lt (by omega)]

theorem shiftLeft_or_immZ (a : Word) (imm : BitVec 12) :
    a <<< 12 ||| immZ imm = BitVec.ofNat 64 (a.toNat * 4096 + imm.toNat) := by
  rw [shiftLeft_eq_mul, immZ_eq, ← BitVec.ofNat_or, ← Nat.shiftLeft_eq, ← Nat.shiftLeft_add_eq_or_of_lt imm.isLt,
    Nat.shiftLeft_eq]

theorem bext64_eq (a : Word) (lsb len : Nat) : bext64 a lsb len = BitVec.ofNat 64 (a.toNat / 2 ^ lsb % 2 ^ len) := by
  rw [bext64, bitsOf, Nat.shiftRight_eq_div_pow]

theorem bins64_eq (d a : Word) (lsb len : Nat) : bins64 d a lsb len = BitVec.ofNat 64
    (d.toNat % 2 ^ lsb + a.toNat % 2 ^ len * 2 ^ lsb + d.toNat / 2 ^ (lsb + len) * 2 ^ (lsb + len)) := by
  rw [bins64, putBits_eq]
  congr 1
  rw [pow_add]
  ring

/-! ### Leading zeros -/

/-- CLZ counts zero bits from bit 63 down to the first bit that is set. -/
theorem clz64_spec (v : Word) : (clz64 v).toNat ≤ 64 ∧ (∀ j, j < (clz64 v).toNat → v.getLsbD (63 - j) = false) ∧
    ((clz64 v).toNat < 64 → v.getLsbD (63 - (clz64 v).toNat) = true) := by
  cases hfind : (List.range 64).find? (fun i => v.getLsbD (63 - i)) with
  | none =>
    have hclz : (clz64 v).toNat = 64 := by rw [clz64, hfind]; rfl
    rw [hclz]
    refine ⟨le_rfl, fun j hj => ?_, fun h => absurd h (lt_irrefl _)⟩
    simpa using List.find?_range_eq_none.mp hfind j hj
  | some k =>
    obtain ⟨hset, hmem, hbefore⟩ := List.find?_range_eq_some.mp hfind
    have hk : k < 64 := List.mem_range.mp hmem
    have hclz : (clz64 v).toNat = k := by
      rw [clz64, hfind, Option.getD_some, BitVec.toNat_ofNat, Nat.mod_eq_of_lt (by omega)]
    rw [hclz]
    exact ⟨hk.le, fun j hj => by simpa using hbefore j hj, fun _ => hset⟩

theorem clz64_le (v : Word) : (clz64 v).toNat ≤ 64 := (clz64_spec v).1

theorem lt_two_pow_clz64 (v : Word) : v.toNat < 2 ^ (64 - (clz64 v).toNat) := by
  obtain ⟨hle, hzero, _⟩ := clz64_spec v
  refine Nat.lt_pow_two_of_testBit _ (fun i hi => ?_)
  rw [BitVec.testBit_toNat]
  by_cases h64 : 64 ≤ i
  · exact BitVec.getLsbD_of_ge v i h64
  · have hbit := hzero (63 - i) (by omega)
    rwa [show 63 - (63 - i) = i by omega] at hbit

theorem two_pow_clz64_le (v : Word) (hlt : (clz64 v).toNat < 64) : 2 ^ (63 - (clz64 v).toNat) ≤ v.toNat := by
  obtain ⟨_, _, hset⟩ := clz64_spec v
  exact Nat.ge_two_pow_of_testBit ((BitVec.testBit_toNat v).trans (hset hlt))

/-! ### The ones'-complement sum -/

theorem parts16_le (v : Nat) : parts16 v ≤ 4 * 65535 := by
  have h0 := bitsOf_lt v 0 16
  have h1 := bitsOf_lt v 16 16
  have h2 := bitsOf_lt v 32 16
  have h3 := bitsOf_lt v 48 16
  unfold parts16
  omega

theorem parts16_eq_zero (a : Word) : parts16 a.toNat = 0 ↔ a = 0 := by
  have hlt := a.isLt
  have hdiv2 : a.toNat / 4294967296 = a.toNat / 65536 / 65536 := by rw [Nat.div_div_eq_div_mul]
  have hdiv3 : a.toNat / 281474976710656 = a.toNat / 65536 / 65536 / 65536 := by
    simp only [Nat.div_div_eq_div_mul, Nat.reduceMul]
  rw [← BitVec.toNat_inj]
  simp only [parts16, bitsOf, Nat.shiftRight_eq_div_pow, BitVec.ofNat_eq_ofNat, BitVec.toNat_ofNat, Nat.zero_mod,
    Nat.reducePow, Nat.div_one, hdiv2, hdiv3]
  constructor
  · intro hsum
    obtain ⟨z0, z1, z2, z3⟩ : a.toNat % 65536 = 0 ∧ a.toNat / 65536 % 65536 = 0 ∧
        a.toNat / 65536 / 65536 % 65536 = 0 ∧ a.toNat / 65536 / 65536 / 65536 % 65536 = 0 := by omega
    omega
  · intro hz
    simp [hz]

theorem csum64_toNat (a b : Word) :
    (csum64 a b).toNat = fold16 (fold16 (parts16 a.toNat + parts16 b.toNat)) := by
  have ha := parts16_le a.toNat
  have hb := parts16_le b.toNat
  rw [csum64, BitVec.toNat_ofNat]
  refine Nat.mod_eq_of_lt ?_
  unfold fold16
  omega

theorem csum64_lt (a b : Word) : (csum64 a b).toNat < 65536 := by
  have ha := parts16_le a.toNat
  have hb := parts16_le b.toNat
  rw [csum64_toNat]
  unfold fold16
  omega

/-- A fold keeps the sum modulo 65,535. -/
theorem fold16_mod (n : Nat) : fold16 n % 65535 = n % 65535 := by
  unfold fold16; omega

theorem csum64_mod (a b : Word) :
    (csum64 a b).toNat % 65535 = (parts16 a.toNat + parts16 b.toNat) % 65535 := by
  rw [csum64_toNat, fold16_mod, fold16_mod]

theorem fold16_eq_zero (n : Nat) : fold16 n = 0 ↔ n = 0 := by
  unfold fold16; omega

theorem csum64_eq_zero (a b : Word) : (csum64 a b).toNat = 0 ↔ a = 0 ∧ b = 0 := by
  rw [csum64_toNat, fold16_eq_zero, fold16_eq_zero, Nat.add_eq_zero_iff, parts16_eq_zero, parts16_eq_zero]

/-! ### Key -/

@[simp] theorem natNibs_length (n v : Nat) : (natNibs n v).length = n := by simp [natNibs]

theorem natNibs_getD (n v i : Nat) (h : i < n) :
    (natNibs n v).getD i 0 = BitVec.ofNat 4 (v / 16 ^ (n - 1 - i)) := by
  rw [natNibs, List.getD_eq_getElem _ _ (by simpa using h), List.getElem_map, List.getElem_range,
    Nat.shiftRight_eq_div_pow, Nat.pow_mul]

/-- An append of one nibble. -/
def keyPush (th : Thread) (n : BitVec 4) : Thread :=
  if th.kpos < 160 then
    { th with key := BitVec.ofNat 640 (putBits th.key.toNat (4 * th.kpos) 4 n.toNat), kpos := th.kpos + 1 }
  else th

theorem keyAppend_cons (th : Thread) (n : BitVec 4) (ns : List (BitVec 4)) :
    keyAppend th (n :: ns) = keyAppend (keyPush th n) ns := rfl

theorem toNat_ofNat_putBits {w : Nat} (k : BitVec w) (lo n f : Nat) (h : lo + n ≤ w) :
    (BitVec.ofNat w (putBits k.toNat lo n f)).toNat = putBits k.toNat lo n f := by
  rw [BitVec.toNat_ofNat, Nat.mod_eq_of_lt (putBits_lt _ _ _ _ _ k.isLt h)]

/-- A nibble stored in K is read back, and every other nibble stays. -/
theorem keyNib_putBits (k : BitVec 640) (p j : Nat) (n : BitVec 4) (hp : p < 160) :
    keyNib (BitVec.ofNat 640 (putBits k.toNat (4 * p) 4 n.toNat)) j = if j = p then n else keyNib k j := by
  rw [keyNib, toNat_ofNat_putBits _ _ _ _ (by omega)]
  split
  · next h => subst h; rw [bitsOf_putBits_same, Nat.mod_eq_of_lt n.isLt, BitVec.ofNat_toNat, BitVec.setWidth_eq]
  · next h => rw [bitsOf_putBits_other _ _ _ _ _ _ (by omega), keyNib]

theorem keyAppend_kpos (th : Thread) (ns : List (BitVec 4)) :
    (keyAppend th ns).kpos = max th.kpos (min 160 (th.kpos + ns.length)) := by
  induction ns generalizing th with
  | nil => simp [keyAppend]
  | cons n ns ih =>
    rw [keyAppend_cons, ih, keyPush, List.length_cons]
    split
    · dsimp only; omega
    · omega

theorem keyNib_keyAppend (th : Thread) (ns : List (BitVec 4)) (j : Nat) (hj : j < 160) :
    keyNib (keyAppend th ns).key j =
      if th.kpos ≤ j ∧ j < th.kpos + ns.length then ns.getD (j - th.kpos) 0 else keyNib th.key j := by
  induction ns generalizing th with
  | nil => rw [if_neg (by simp)]; rfl
  | cons n ns ih =>
    rw [keyAppend_cons, ih, keyPush, List.length_cons]
    split
    · next hp =>
      dsimp only
      rw [keyNib_putBits _ _ _ _ hp]
      obtain h | rfl | h := Nat.lt_trichotomy j th.kpos
      · rw [if_neg (by omega), if_neg (by omega), if_neg (by omega)]
      · rw [if_neg (by omega), if_pos rfl, if_pos (by omega)]; simp
      · obtain ⟨i, rfl⟩ := Nat.exists_eq_add_of_lt h
        rw [show th.kpos + i + 1 - th.kpos = i + 1 by omega, List.getD_cons_succ,
          show th.kpos + i + 1 - (th.kpos + 1) = i by omega, if_neg (show th.kpos + i + 1 ≠ th.kpos by omega)]
        exact if_congr (by omega) rfl rfl
    · rw [if_neg (by omega), if_neg (by omega)]

theorem keyAppend_frame (th : Thread) (ns : List (BitVec 4)) :
    { keyAppend th ns with key := th.key, kpos := th.kpos } = th := by
  induction ns generalizing th with
  | nil => rfl
  | cons n ns ih =>
    have hpush : { keyPush th n with key := th.key, kpos := th.kpos } = th := by unfold keyPush; split <;> rfl
    have h := congrArg (fun u : Thread => { u with key := th.key, kpos := th.kpos }) (ih (keyPush th n))
    exact h.trans hpush

/-! ### Branches -/

/-- The address of the instruction just issued is the word address before PC (R120). -/
theorem ownAddr_eq (t : Tid) (th : Thread) (n : Nat) (h : th.pc = (n + 1) % codeSize t) :
    ownAddr t th = n % codeSize t := by
  have hsize : codeSize t = 65536 ∨ codeSize t = 131072 := by unfold codeSize; split <;> simp
  rw [ownAddr, h]
  rcases hsize with h | h <;> rw [h] <;> omega

/-- A branch from an instruction that stood at `n` changes PC alone. -/
theorem branchTo_eq (t : Tid) (f : FmtB) (th : Thread) (n : Nat) (h : th.pc = (n + 1) % codeSize t) :
    branchTo t f th =
      { th with pc := ((((n % codeSize t : Nat) : Int) + f.off.toInt) % (codeSize t : Int)).toNat } := by
  rw [branchTo, ownAddr_eq t th n h, jumpTo]

@[simp] theorem setReg_pc (th : Thread) (r : Nat) (v : Word) : (th.setReg r v).pc = th.pc := by
  unfold Thread.setReg; split <;> rfl

theorem jumpTo_nat (t : Tid) (a : Nat) (th : Thread) : jumpTo t (a : Int) th = { th with pc := a % codeSize t } := by
  rw [jumpTo, ← Int.natCast_mod, Int.toNat_natCast]

/-! ### The statements -/

/-- Settles O1: every row is an `aluA` whose function is its row's, with CLZ and CSUM by their own bounds. -/
theorem integerInstructionsSetTheirRegister : Obligations.IntegerInstructionsSetTheirRegister := by
  intro s t f a b n put
  refine ⟨?add, ?sub, ?and, ?or, ?xor, ?andn, ?shl, ?shr, ?sar, ?mul, ?sel, ?clz, clz64_le a, lt_two_pow_clz64 a,
    two_pow_clz64_le a, ?bswap, ?hash, ?csum, csum64_lt a b, csum64_mod a b, csum64_eq_zero a b⟩
  case add | sub | and | or | xor | andn | clz | bswap | hash | csum =>
    exact threadRule_of_aluA rfl rfl (fun _ => rfl)
  case shl => exact threadRule_of_aluA rfl rfl (fun _ => shiftLeft_eq_mul a n)
  case shr => exact threadRule_of_aluA rfl rfl (fun _ => ushiftRight_eq_div a n)
  case sar => exact threadRule_of_aluA rfl rfl (fun _ => sshiftRight_eq_div a n)
  case mul => exact threadRule_of_aluA rfl rfl (fun _ => BitVec.mul_def)
  case sel =>
    refine threadRule_of_aluA rfl rfl (fun hx => ?_)
    rw [Nat.mod_eq_of_lt hx]
    rfl

/-- Settles O2: the compares are `cmpA`; PLOG, PTOG and GTOP read the predicates or A as they were at issue. -/
theorem compareInstructionsSetTheirPredicate : Obligations.CompareInstructionsSetTheirPredicate := by
  intro s t f a b p bit put
  refine ⟨?ceq, ?cne, ?cltu, ?clt, ?plog, ?ptog, ?gtop⟩
  case ceq | cne | cltu | clt => exact threadRule_of_cmpA rfl rfl rfl
  case plog =>
    refine threadRule_of_issue rfl (encA_opcode 0x14 f (by decide)) rfl decide_eq_true_iff (fun _ => ?_)
    rw [plogBit_eq]
    rfl
  case ptog => exact threadRule_of_aluA rfl rfl (fun _ => (BitVec.ofNat_toNat ..).symm)
  case gtop =>
    refine threadRule_of_issue rfl (encA_opcode 0x16 f (by decide)) rfl decide_eq_true_iff (fun _ => ?_)
    rw [setWidth8_eq]
    rfl

/-- Settles O3: every row is an `aluI` or a `cmpI` whose function is its row's; the word of the no-operation is one
evaluation of `encI`. -/
theorem immediateInstructionsSetTheirRegister : Obligations.ImmediateInstructionsSetTheirRegister := by
  intro s t f a d imm lsb len put
  have always : (true && decide (f.p = 0)) = true ↔ f.p = 0 := by simp
  have shift : (decide (imm < 64) && decide (f.p = 0)) = true ↔ imm < 64 ∧ f.p = 0 := by simp
  have field : (decide (lsb + len ≤ 64) && decide (f.p = 0)) = true ↔ lsb + len ≤ 64 ∧ f.p = 0 := by simp
  refine ⟨?addi, ?andi, ?ori, ?xori, ?shli, ?shri, ?sari, ?orsh, ?ceqi, ?cltui, ?bext, ?bins, ?nop⟩
  case addi => exact threadRule_of_aluI rfl rfl always (fun _ => add_immS a f.imm)
  case andi => exact threadRule_of_aluI rfl rfl always (fun _ => by rw [immZ_eq])
  case ori => exact threadRule_of_aluI rfl rfl always (fun _ => by rw [immZ_eq])
  case xori => exact threadRule_of_aluI rfl rfl always (fun _ => by rw [immZ_eq])
  case shli =>
    exact threadRule_of_aluI rfl rfl shift (fun h => by rw [Nat.mod_eq_of_lt h.1, shiftLeft_eq_mul])
  case shri =>
    exact threadRule_of_aluI rfl rfl shift (fun h => by rw [Nat.mod_eq_of_lt h.1, ushiftRight_eq_div])
  case sari =>
    exact threadRule_of_aluI rfl rfl shift (fun h => by rw [Nat.mod_eq_of_lt h.1, sshiftRight_eq_div])
  case orsh => exact threadRule_of_aluI rfl rfl always (fun _ => shiftLeft_or_immZ a f.imm)
  case ceqi => exact threadRule_of_cmpI rfl rfl (decide_eq_decide.mpr (eq_immZ a f.imm))
  case cltui => exact threadRule_of_cmpI rfl rfl rfl
  case bext => exact threadRule_of_aluI rfl rfl field (fun _ => bext64_eq a lsb len)
  case bins => exact threadRule_of_aluI rfl rfl field (fun _ => bins64_eq d a lsb len)
  case nop =>
    intro hd ha hp himm
    simp [encI, hd, ha, hp, himm]

/-- Settles O5: the address of an issued instruction is the PC before it, reduced, and each branch jumps from there. -/
theorem branchesSetThePc : Obligations.BranchesSetThePc := by
  intro s t f g own dst a
  refine ⟨?br, ?bp, ?call, ?jr⟩
  case br =>
    exact threadRule_of_issue rfl (encB_opcode 0x58 f (by decide)) rfl decide_eq_true_iff
      (fun _ => branchTo_eq t f _ _ (advance_pc s t))
  case bp =>
    refine threadRule_of_issue rfl (encB_opcode 0x59 f (by decide)) rfl decide_eq_true_iff (fun _ => ?_)
    rw [advance_pred, branchTo_eq t f _ _ (advance_pc s t)]
  case call =>
    refine threadRule_of_issue rfl (encB_opcode 0x5A f (by decide)) rfl decide_eq_true_iff (fun _ => ?_)
    rw [branchTo_eq t f _ _ ((setReg_pc ..).trans (advance_pc s t)), advance_pc, ← Nat.mod_add_mod]
  case jr =>
    exact threadRule_of_issue rfl (encA_opcode 0x19 g (by decide)) rfl decide_eq_true_iff (fun _ => jumpTo_nat ..)

/-- Settles O7: an append is induction over its nibbles, each of which `keyPush` writes at KPOS. -/
theorem keyInstructionsFillTheKey : Obligations.KeyInstructionsFillTheKey := by
  refine ⟨fun s t f => ⟨?kputg, ?kseek⟩, fun th ns n v i => ?append⟩
  case kputg =>
    exact threadRule_of_issue rfl (encI_opcode 0x2C f (by decide)) rfl decide_eq_true_iff (fun _ => rfl)
  case kseek =>
    refine threadRule_of_issue rfl (encI_opcode 0x2D f (by decide)) rfl decide_eq_true_iff (fun ⟨_, hn, _⟩ => ?_)
    have hclear : f.imm.toNat / 256 = 1 ↔ 256 ≤ f.imm.toNat := by omega
    simp only [hclear, Nat.pow_mul, Nat.reducePow]
  case append =>
    exact ⟨keyAppend_kpos th ns, keyNib_keyAppend th ns, keyAppend_frame th ns, natNibs_length n v,
      natNibs_getD n v i⟩

end Sys2Proof.Machine
end
